-- ==== Sys2Proof/Word.lean ====
section
/-! DEFINITION. The byte of the station link and the panel links, and the word types carried on them. -/
namespace Sys2Proof

/-- One byte on a link (09 section 9.1, 11 section 11.1). -/
abbrev Byte := BitVec 8

/-- A two-byte field or check word. -/
abbrev Word := BitVec 16

end Sys2Proof
end

