-- ==== Sys2Proof/Syntax.lean ====
section
/-! DEFINITION. The commands of the controller: one constructor for each row of spec/opcode_table.json. -/
namespace Sys2Proof

/-- What a request frame carries besides its kind: the unit selection and the body bytes
(11 section 11.2, offsets 3 and 6). -/
structure Request where
  sel  : Word
  body : List Byte
  deriving DecidableEq, Repr

/-- A command to the block: an event of the field, a panel, a timer, the store or the supply, or a
request frame of the station computer. -/
inductive Instr where
  -- points, units and groups
  | contactLevelChange (point : Fin 256) (level : Bool)
  | debounceExpiry (point : Fin 256)
  | chatterDecayExpiry
  | forceExpiry (point : Fin 256)
  | modeSettleExpiry (unit : Fin 9)
  | groupSettleExpiry (group : Fin 16)
  -- panels; panel 0 is P1
  | frameClockPeriod
  | keyReply (panel : Fin 4) (reply : List Byte)
  | keyReplyMiss (panel : Fin 4)
  | requestedTestExpiry (panel : Fin 4)
  | chimeEnd (panel : Fin 4)
  -- equations and outputs
  | delayExpiry (equation : Fin 32)
  | pulseExpiry (output : Fin 16)
  | verifyExpiry (output : Fin 16)
  | readbackChange (output : Fin 16) (level : Bool)
  -- hall clock
  | minutePulse
  | minuteWatchExpiry
  -- station line
  | stationLinkByte (byte : Byte)
  | interByteSilence
  | frameDiscard (frame : List Byte)
  | unknownRequestKind (kind : Byte) (r : Request)
  | replySent
  | silenceTimerExpiry
  -- reads
  | readStatus (r : Request)
  | readPoints (r : Request)
  | readWindows (r : Request)
  | readGroups (r : Request)
  | readEquations (r : Request)
  | readOutputs (r : Request)
  | readEvents (r : Request)
  | readClock (r : Request)
  -- operator requests
  | ack (r : Request)
  | silence (r : Request)
  | resetWindows (r : Request)
  | resetGroups (r : Request)
  | lampTest (r : Request)
  | brightness (r : Request)
  -- trip, force, news, output and clock requests
  | tripReset (r : Request)
  | arm (r : Request)
  | force (r : Request)
  | unforce (r : Request)
  | clearNews (r : Request)
  | clearFaults (r : Request)
  | outputSet (r : Request)
  | outputClear (r : Request)
  | setTime (broadcast : Bool) (r : Request)
  -- configuration
  | putPoint (r : Request)
  | getPoint (r : Request)
  | putUnit (r : Request)
  | getUnit (r : Request)
  | putWindow (r : Request)
  | getWindow (r : Request)
  | putPanel (r : Request)
  | getPanel (r : Request)
  | putGroup (r : Request)
  | getGroup (r : Request)
  | putEquation (r : Request)
  | getEquation (r : Request)
  | putOutput (r : Request)
  | getOutput (r : Request)
  | putSettings (r : Request)
  | getSettings (r : Request)
  -- store, service and starts
  | save (r : Request)
  | saveSuccess
  | saveFailure
  | setService (r : Request)
  | clearAll (r : Request)
  | settleEnd
  | powerOn
  | resetLine
  deriving DecidableEq, Repr

end Sys2Proof
end

