-- ==== Sys2Proof/Decode.lean ====
section
/-! DEFINITION. The decoder over the bits of spec/opcode_table.json. No row of the table gives bits:
the controller's commands are events and frames, whose bytes Machine/Link.lean reads. -/
namespace Sys2Proof

/-- The command a word spells by the table's bits: none, since no row has bits (log entry 21). -/
def decodeTableWord (_nbits _w : Nat) : Option Instr := none

end Sys2Proof
end

