-- ==== Sys2Proof/Config.lean ====
section
/-! DEFINITION. The fixed capacities of the controller and the free values the manual leaves open. -/
namespace Sys2Proof.Config

/-- Clock units of 0.1 ms in one ms, one s, one minute and one day (00 section 4.0). -/
abbrev unitsPerMs : Nat := 10
abbrev unitsPerSecond : Nat := 10000
abbrev unitsPerMinute : Nat := 600000
abbrev unitsPerDay : Nat := 864000000

/-- The log stores a record other than a GAP only while fewer than this many are held (R147). -/
abbrev logOrdinary : Nat := 1023
/-- The Force Table's capacity (01 section 1.6). -/
abbrev forceCapacity : Nat := 8
/-- A window's contributor list holds at most this many points (R39). -/
abbrev contributorCapacity : Nat := 8
/-- A first-out set holds at most this many points (R67). -/
abbrev firstOutCapacity : Nat := 4
/-- The frame clock's period, 40 ms, and the wait for a KEY reply, 10 ms (R81). -/
abbrev framePeriod : Nat := 400
abbrev replyWait : Nat := 100
/-- A chime sounds 1000 ms (R99). -/
abbrev chimeLength : Nat := 10000
/-- The start-up settle, 250 ms (R170). -/
abbrev settleLength : Nat := 2500
/-- The minute watch, 150 s (R143). -/
abbrev minuteWatch : Nat := 1500000
/-- A SAVE has 2 s to complete (R169). -/
abbrev saveLimit : Nat := 20000
/-- Silence of more than 3 ms ends a frame's reception (R153). -/
abbrev interByte : Nat := 30

/-- What the store holds after a failed SAVE. The manual does not say (R169). -/
inductive FailedSave where
  | keepsOld   -- the image that stood before
  | holdsCopy  -- the copy being written
  | bad        -- an image that is not good (R168)
  deriving DecidableEq, Repr, Inhabited

/-- Free value: what the n-th draw says a failed SAVE leaves in the store (log entry 9). -/
opaque failedSaveLeaves : Nat → FailedSave

/-- Free value: whether the write of a SAVE had completed when a start ended it (R169, log entry 10). -/
opaque saveWriteDone : Nat → Bool

/-- Free value: whether the LAMP frame of the n-th draw reaches this panel whole (R83, R176, log entry 8). -/
opaque lampFrameArrives : Nat → Fin 4 → Bool

end Sys2Proof.Config
end

