-- ==== Sys2Proof/Machine/State.lean ====
section
/-! DEFINITION. The state of the controller as plain data, and the state right after its first power-on. -/
namespace Sys2Proof.Machine

/-! ### Codes and records shared by the blocks -/

/-- A time stamp: the day and the day-time in clock units of 0.1 ms (00 section 4.0, R136). -/
structure TimeStamp where
  day     : Word
  dayTime : Nat
  deriving DecidableEq, Repr, Inhabited

/-- A state of a point (01 section 1.1). -/
inductive PointState where | normal | abnormal
  deriving DecidableEq, Repr, Inhabited

/-- The kinds of point (R1). -/
inductive PointKind where | alarm | status | mode | key | spare | system
  deriving DecidableEq, Repr, Inhabited

/-- The sense of a field point: which level maps to ABNORMAL (01 section 1.2). -/
inductive Sense where | alarmOnClosed | alarmOnOpen
  deriving DecidableEq, Repr, Inhabited

/-- The modes of a unit; `common` is unit 0's alone (02 section 2.1). -/
inductive Mode where | stopped | generate | pump | condense | changeover | common
  deriving DecidableEq, Repr, Inhabited

/-- The causes with which a change of active flag is handed on (R12). -/
inductive Cause where | qualify | system | force | unforce | chatter | mode | reconfig | startup
  deriving DecidableEq, Repr, Inhabited

inductive SeqType where | seqF | seqA | seqN | seqS
  deriving DecidableEq, Repr, Inhabited

/-- Window classes, C1 the highest (03 section 3.1). -/
inductive WindowClass where | c1 | c2 | c3 | c4
  deriving DecidableEq, Repr, Inhabited

inductive Colour where | white | amber | red
  deriving DecidableEq, Repr, Inhabited

/-- The state of a window (R42). -/
inductive WindowState where | quiet | alert | held | returned
  deriving DecidableEq, Repr, Inhabited

/-- Lamp patterns (R59, R83). -/
inductive Pattern where | off | steady | fast | slow | first | wink
  deriving DecidableEq, Repr, Inhabited

inductive GroupState where | armed | settling | captured
  deriving DecidableEq, Repr, Inhabited

inductive LinkState where | disabled | starting | up | lost
  deriving DecidableEq, Repr, Inhabited

inductive EquationState where | unused | disarmed | idle | timing | tripped | blocked
  deriving DecidableEq, Repr, Inhabited

inductive Hold where | latch | follow
  deriving DecidableEq, Repr, Inhabited

inductive AfterTrip where | rearm | disarm
  deriving DecidableEq, Repr, Inhabited

/-- A term of an equation (R102). -/
inductive Term where
  | const (value : Bool)
  | point (p : Fin 268)
  | equation (k : Fin 32)
  | mode (u : Fin 9) (m : Mode)
  deriving DecidableEq, Repr, Inhabited

/-- What a term change came from; it is also the kind and index of a cause (R113). -/
inductive TermSource where
  | point (p : Fin 268)
  | equation (k : Fin 32)
  | mode (u : Fin 9)
  deriving DecidableEq, Repr, Inhabited

/-- The cause of an equation: the term change that last made its condition true (R113). -/
structure TripCause where
  source : TermSource
  time   : TimeStamp
  deriving DecidableEq, Repr, Inhabited

inductive OutputKind where | sustained | pulse
  deriving DecidableEq, Repr, Inhabited

inductive ClockState where | unset | free | locked
  deriving DecidableEq, Repr, Inhabited

inductive Service where | unconfigured | commissioning | inService
  deriving DecidableEq, Repr, Inhabited

inductive StoreState where | idle | saving | failed
  deriving DecidableEq, Repr, Inhabited

/-- The five link speeds, 9600 to 115200 bit/s (09 section 9.7). -/
inductive LinkSpeed where | b9600 | b19200 | b38400 | b57600 | b115200
  deriving DecidableEq, Repr, Inhabited

inductive NewsClearMode where | clearOnRead | clearByRequest
  deriving DecidableEq, Repr, Inhabited

inductive NewsKind where | alert | trip | mode | fault
  deriving DecidableEq, Repr, Inhabited

/-- A running timer: when it started, in elapsed clock units, and the duration it started with. -/
structure Timer where
  start : Nat
  dur   : Nat
  deriving DecidableEq, Repr, Inhabited

/-! ### Configured records -/

/-- A point record (01 section 1.1). -/
structure PointConfig where
  kind      : PointKind
  unit      : Fin 9
  sense     : Sense
  debounce  : Nat                -- ms, 0..255
  weight    : Nat                -- 0..63
  threshold : Nat                -- 1..255
  mask      : BitVec 5           -- bit k for the mode of code k
  window    : Option (Fin 192)
  group     : Option (Fin 16)
  logging   : Bool
  deriving DecidableEq, Repr, Inhabited

/-- A unit record (02 section 2.1). -/
structure UnitConfig where
  run    : Option (Fin 268)
  pump   : Option (Fin 268)
  cond   : Option (Fin 268)
  settle : Nat                   -- s, 0..600
  key    : Option (Fin 268)
  deriving DecidableEq, Repr, Inhabited

/-- A window record (03 section 3.1). -/
structure WindowConfig where
  seq      : SeqType
  cls      : WindowClass
  colour   : Colour
  ringback : Bool
  deriving DecidableEq, Repr, Inhabited

/-- A panel record (05 section 5.1). -/
structure PanelConfig where
  enabled    : Bool
  positions  : List (Fin 192)
  brightness : Nat               -- 1..8
  deriving DecidableEq, Repr, Inhabited

/-- A group record (04 section 4.1). -/
structure GroupConfig where
  resolve : Nat                  -- ms, 0..255
  home    : Option (Fin 4)
  deriving DecidableEq, Repr, Inhabited

/-- An equation record (06 section 6.1). -/
structure EquationRecord where
  inUse : Bool
  unit  : Fin 9
  a     : Term
  b     : Term
  func  : Fin 16
  delay : Nat                    -- ms, 0..60000
  outs  : Word                   -- bit k for Ok
  hold  : Hold
  after : AfterTrip
  deriving DecidableEq, Repr, Inhabited

/-- An output record (07 section 7.1). -/
structure OutputConfig where
  kind     : OutputKind
  width    : Nat                 -- ms, 10..5000 in steps of 10
  verify   : Nat                 -- ms, 5..250
  readback : Bool                -- PRESENT
  unit     : Fin 9
  deriving DecidableEq, Repr, Inhabited

/-- The attention enables (09 section 9.7). -/
structure Enables where
  alert : Bool
  trip  : Bool
  mode  : Bool
  fault : Bool
  log   : Bool
  deriving DecidableEq, Repr, Inhabited

/-- The settings record (09 section 9.7). -/
structure Settings where
  decay       : Nat              -- ms, 100..10000 in steps of 100
  speed       : LinkSpeed
  silence     : Nat              -- s, 0..255
  minutePulse : Bool
  syncWindow  : Nat              -- clock units, 0..5000
  clearMode   : NewsClearMode
  enables     : Enables
  deriving DecidableEq, Repr, Inhabited

/-- The working configuration: every configured table (10 section 10.2). -/
structure Tables where
  points    : Vector PointConfig 268
  units     : Vector UnitConfig 9
  windows   : Vector WindowConfig 192
  panels    : Vector PanelConfig 4
  groups    : Vector GroupConfig 16
  equations : Vector EquationRecord 32
  outputs   : Vector OutputConfig 16
  settings  : Settings
  deriving DecidableEq, Repr

/-! ### Runtime fields of the blocks -/

/-- A running debounce timer: the captured edge time E and the elapsed time of the level change (R5). -/
structure Debounce where
  edge  : TimeStamp
  start : Nat
  deriving DecidableEq, Repr, Inhabited

/-- The runtime fields of a point (01 section 1.1). The effective state and the forced flag and value
are derived from `qual` and the Force Table (R11). -/
structure PointRun where
  raw        : Bool
  qual       : PointState
  chattering : Bool
  score      : Nat
  suppressed : Nat
  lastEdge   : TimeStamp
  debounce   : Option Debounce
  active     : Bool
  deriving DecidableEq, Repr, Inhabited

/-- An entry of the Force Table (01 section 1.6): it expires `minutes` of elapsed time after `start`. -/
structure ForceEntry where
  point   : Fin 268
  value   : PointState
  setAt   : TimeStamp
  start   : Nat
  minutes : Nat
  deriving DecidableEq, Repr, Inhabited

/-- The runtime fields of a unit (02 section 2.1). `settle` is the last start of the settle timer. -/
structure UnitRun where
  decoded : Mode
  current : Mode
  target  : Option Mode
  settle  : Option Nat
  blocked : Bool
  deriving DecidableEq, Repr, Inhabited

/-- The runtime fields of a group (04 section 4.1). -/
structure GroupRun where
  state      : GroupState
  firstOut   : List (Fin 268)
  stamp      : Option TimeStamp
  subsequent : Nat
  overfull   : Bool
  timer      : Option Timer
  deriving DecidableEq, Repr, Inhabited

/-- The frame clock: phase, whether the first period has begun, and the start of the period (R81). -/
structure FrameClock where
  phase : Byte
  begun : Bool
  start : Nat
  deriving DecidableEq, Repr, Inhabited

/-- The press counters of a KEY reply, each 0..15 (R86). -/
structure Counters where
  ack     : BitVec 4
  silence : BitVec 4
  reset   : BitVec 4
  deriving DecidableEq, Repr, Inhabited

/-- A set of window classes (R97). -/
structure ClassSet where
  c1 : Bool
  c2 : Bool
  c3 : Bool
  c4 : Bool
  deriving DecidableEq, Repr, Inhabited

/-- A horn: silent, sounding the cadence of a class since a moment, or chiming since a moment (R98, R99). -/
inductive Horn where
  | silent
  | cadence (c : WindowClass) (start : Nat)
  | chime (start : Nat)
  deriving DecidableEq, Repr, Inhabited

/-- A requested lamp test (R96). -/
structure RequestedTest where
  first   : Nat
  last    : Nat
  start   : Nat
  seconds : Nat
  deriving DecidableEq, Repr, Inhabited

/-- What a fascia shows: the codes, brightness and phase of the last frame it took, and when (R83). -/
structure Fascia where
  phase      : Byte
  brightness : Nat
  codes      : List Byte
  since      : Nat
  deriving DecidableEq, Repr, Inhabited

/-- The runtime fields of a panel (05 section 5.1), its exchange (R81) and its display (R83). -/
structure PanelRun where
  link       : LinkState
  misses     : Nat
  seen       : Option Counters
  keys       : BitVec 4          -- bit 0 ACK, 1 SILENCE, 2 RESET, 3 TEST; held is 1
  brightness : Nat
  calls      : ClassSet
  horn       : Horn
  keyTest    : Bool
  test       : Option RequestedTest
  exchange   : Option Nat        -- the start of the 10 ms wait
  lostFor    : Nat               -- periods since the panel became LOST, modulo 25
  lastFrame  : Option (List Byte)
  fascia     : Option Fascia
  deriving DecidableEq, Repr, Inhabited

/-- The runtime fields of an equation (06 section 6.1). `timing` is the start of the running delay. -/
structure EquationRun where
  state     : EquationState
  a         : Bool
  b         : Bool
  cond      : Bool
  timing    : Option Nat
  cause     : Option TripCause
  staged    : Option EquationRecord   -- the pending record
  overwrite : Bool
  deriving DecidableEq, Repr, Inhabited

/-- The runtime fields of an output (07 section 7.1). -/
structure OutputRun where
  demanding : BitVec 32               -- bit k while Ek demands the output
  manual    : Bool
  commanded : Bool                    -- ENERGIZED
  pulse     : Option Timer
  verify    : Option Timer
  readback  : Bool
  fault     : Bool
  deriving DecidableEq, Repr, Inhabited

/-- The Hall Clock (R136, R137, R143). `watch` is the start of the minute watch. -/
structure HallClock where
  stamp : TimeStamp
  state : ClockState
  watch : Option Nat
  deriving DecidableEq, Repr, Inhabited

/-! ### The event log -/

/-- The flags of a POINT record (11 section 11.4). -/
structure PointFlags where
  forced  : Bool := false
  startup : Bool := false
  system  : Bool := false
  unforce : Bool := false
  deriving DecidableEq, Repr, Inhabited

inductive ForceOffReason where | request | expiry | reconfig | clear
  deriving DecidableEq, Repr, Inhabited

inductive OperatorAction where | ack | silence | reset | groupReset | lampTest | brightness
  deriving DecidableEq, Repr, Inhabited

inductive TripEndReason where | cancelCondition | cancelBlock | followClear | reset | service
  deriving DecidableEq, Repr, Inhabited

inductive OutputEvent where | fault | faultCleared | manualSet | manualClear
  deriving DecidableEq, Repr, Inhabited

inductive ClockReason where | set | snap | reject | lapse | disable
  deriving DecidableEq, Repr, Inhabited

inductive ServiceCause where
  | request | powerOn | powerOnDefaults | resetLine | resetLineDefaults | clearAll
  deriving DecidableEq, Repr, Inhabited

/-- The body of a log record, by kind (11 section 11.4). A source of `none` is LINK. -/
inductive RecordBody where
  | point (p : Fin 268) (state : PointState) (flags : PointFlags) (edge : TimeStamp)
  | chatterOn (p : Fin 268) (score : Nat)
  | chatterOff (p : Fin 268) (state : PointState) (suppressed : Nat)
  | forceOn (p : Fin 268) (value : PointState)
  | forceOff (p : Fin 268) (value : PointState) (reason : ForceOffReason)
  | mode (u : Fin 9) (old new : Mode)
  | operator (action : OperatorAction) (source : Option (Fin 4)) (count : Nat)
  | firstOut (g : Fin 16) (stamp : TimeStamp) (points : List (Fin 268))
  | trip (k : Fin 32) (outs : Word) (cause : Option TripCause)
  | tripEnd (k : Fin 32) (reason : TripEndReason)
  | output (o : Fin 16) (event : OutputEvent)
  | clock (step : Int) (reason : ClockReason) (state : ClockState)
  | gap (lost : Nat) (first last : TimeStamp)
  | service (state : Service) (cause : ServiceCause)
  deriving DecidableEq, Repr

/-- A stored record: sequence number, storage time and body (R146). -/
structure LogRecord where
  seq   : Word
  stamp : TimeStamp
  body  : RecordBody
  deriving DecidableEq, Repr

/-- The log, oldest record first, and the next sequence number (R146). -/
structure EventLog where
  recs : List LogRecord
  next : Word
  deriving DecidableEq, Repr

/-! ### The station link and the store -/

/-- The frame receiver (R153). The bytes stand in order of arrival; `last` is when the last byte came;
`replying` holds the reply frame being sent. -/
inductive Receiver where
  | hunt
  | receiving (bytes : List Byte) (last : Nat)
  | skip (last : Nat)
  | replying (frame : List Byte)
  deriving DecidableEq, Repr, Inhabited

/-- The Link Interface (09): straps, station number, receiver, speed in force, silence timer. -/
structure LinkRun where
  straps   : BitVec 5
  station  : BitVec 5
  receiver : Receiver
  speed    : LinkSpeed
  silence  : Option Nat               -- the last restart of the silence timer, while it runs
  silent   : Bool                     -- the condition of system point 265
  deriving DecidableEq, Repr, Inhabited

/-- The four news flags of a unit (09 section 9.5). -/
structure News where
  alert : Bool
  trip  : Bool
  mode  : Bool
  fault : Bool
  deriving DecidableEq, Repr, Inhabited

/-- The non-volatile image: configuration, service state, and whether its check word verifies (R168). -/
structure StoredImage where
  tables  : Tables
  service : Service
  check   : Bool
  deriving DecidableEq, Repr

/-- A SAVE in progress (R169): the copy being written and what was so when the request was taken. -/
structure SaveJob where
  tables       : Tables
  service      : Service
  stagedHeld   : Bool                 -- a pending equation record was held
  start        : Nat
  deriving DecidableEq, Repr

/-- The Configuration Store (10). -/
structure StoreRun where
  image      : StoredImage
  job        : Option SaveJob
  lastFailed : Bool                   -- the condition of system point 267
  differs    : Bool                   -- the condition of system point 264
  deriving DecidableEq, Repr

/-- The state of the controller. -/
structure State where
  now        : Nat                    -- elapsed clock units, from which every timer measures
  draws      : Nat                    -- free values drawn so far
  service    : Service
  settle     : Option Nat             -- the start of a running start-up settle
  cfg        : Tables
  pt         : Vector PointRun 268
  forces     : List ForceEntry
  decay      : Option Nat             -- the start of the present decay interval
  un         : Vector UnitRun 9
  win        : Vector WindowState 192
  grp        : Vector GroupRun 16
  frameClock : FrameClock
  pan        : Vector PanelRun 4
  eqn        : Vector EquationRun 32
  out        : Vector OutputRun 16
  clock      : HallClock
  log        : EventLog
  link       : LinkRun
  news       : Vector News 9
  store      : StoreRun
  pending    : List Instr             -- commands waiting, first in first out
  deriving DecidableEq, Repr

/-- Faults: none. No rule of the manual stops the controller, so no command ends in a fault. -/
inductive Fault where
  deriving DecidableEq, Repr

/-- Refusals. -/
inductive Refusal where
  /-- Raised by exec's arm for a command that has no meaning yet; no arm raises it now. Safe: nothing
  is claimed of such a command. -/
  | notModelled (mnemonic : String)
  deriving DecidableEq, Repr

/-! ### Default records and the state after the first power-on -/

/-- The table of `f`: item `i` holds `f i`. -/
def tab {α : Type} {n : Nat} (f : Fin n → α) : Vector α n :=
  ⟨⟨(List.finRange n).map f⟩, by simp⟩

/-- The default record of a field point, and the fixed fields of a system point (01 section 1.1). -/
def PointConfig.default (p : Fin 268) : PointConfig :=
  if p.val < 256 then
    { kind := .spare, unit := 0, sense := .alarmOnClosed, debounce := 10, weight := 0,
      threshold := 255, mask := 0b11111, window := none, group := none, logging := true }
  else
    { kind := .system, unit := 0, sense := .alarmOnClosed, debounce := 0, weight := 0,
      threshold := 255, mask := 0b11111, window := none, group := none, logging := true }

def EquationRecord.default : EquationRecord :=
  { inUse := false, unit := 0, a := .const false, b := .const false, func := 0, delay := 0,
    outs := 0, hold := .latch, after := .rearm }

def Settings.default : Settings :=
  { decay := 1000, speed := .b19200, silence := 0, minutePulse := false, syncWindow := 1000,
    clearMode := .clearOnRead, enables := ⟨false, false, false, false, false⟩ }

/-- Every record at its default (R168). -/
def Tables.default : Tables where
  points    := tab PointConfig.default
  units     := tab fun _ => { run := none, pump := none, cond := none, settle := 0, key := none }
  windows   := tab fun _ => { seq := .seqF, cls := .c4, colour := .white, ringback := false }
  panels    := tab fun _ => { enabled := false, positions := [], brightness := 8 }
  groups    := tab fun _ => { resolve := 0, home := none }
  equations := tab fun _ => EquationRecord.default
  outputs   := tab fun _ =>
    { kind := .sustained, width := 500, verify := 50, readback := false, unit := 0 }
  settings  := Settings.default

/-- Day 0, day-time 0 (R145). -/
def TimeStamp.zero : TimeStamp := ⟨0, 0⟩

def ClassSet.empty : ClassSet := ⟨false, false, false, false⟩

/-- The controller right after its first power-on: a factory store (blank, so its image is bad), the
strap number 12 of 10 section 10.5, every contact open. Its log holds the three records of that start
(R171; 10 section 10.5, first row). Log entry 11 names the values the manual does not give. -/
def State.reset : State where
  now        := 0
  draws      := 0
  service    := .unconfigured
  settle     := none
  cfg        := Tables.default
  pt         := tab fun p =>
    let abn : Bool := p.val == 260 || p.val == 264
    { raw := abn, qual := if abn then .abnormal else .normal, chattering := false, score := 0,
      suppressed := 0, lastEdge := TimeStamp.zero, debounce := none, active := abn }
  forces     := []
  decay      := none
  un         := tab fun u =>
    { decoded := if u = 0 then .common else .generate,
      current := if u = 0 then .common else .generate,
      target := none, settle := none, blocked := false }
  win        := tab fun _ => .quiet
  grp        := tab fun _ =>
    { state := .armed, firstOut := [], stamp := none, subsequent := 0, overfull := false,
      timer := none }
  frameClock := ⟨0, false, 0⟩
  pan        := tab fun _ =>
    { link := .disabled, misses := 0, seen := none, keys := 0, brightness := 8,
      calls := ClassSet.empty, horn := .silent, keyTest := false, test := none, exchange := none,
      lostFor := 0, lastFrame := none, fascia := none }
  eqn        := tab fun _ =>
    { state := .unused, a := false, b := false, cond := false, timing := none, cause := none,
      staged := none, overwrite := false }
  out        := tab fun _ =>
    { demanding := 0, manual := false, commanded := false, pulse := none, verify := none,
      readback := false, fault := false }
  clock      := ⟨TimeStamp.zero, .unset, none⟩
  log        :=
    { recs := [⟨0, TimeStamp.zero, .service .unconfigured .powerOnDefaults⟩,
        ⟨1, TimeStamp.zero, .point 260 .abnormal { startup := true, system := true } TimeStamp.zero⟩,
        ⟨2, TimeStamp.zero, .point 264 .abnormal { startup := true, system := true } TimeStamp.zero⟩],
      next := 3 }
  link       :=
    { straps := 12, station := 12, receiver := .hunt, speed := .b19200, silence := none,
      silent := false }
  news       := tab fun _ => ⟨false, false, false, false⟩
  store      :=
    { image := ⟨Tables.default, .unconfigured, false⟩, job := none, lastFailed := false,
      differs := true }
  pending    := []

end Sys2Proof.Machine
end

