-- ==== Sys2Proof/Machine/Ops.lean ====
section
/-! DEFINITION. The named operations over the state: field updates, loops over a table, byte order,
the check word, the codes of chapter 11, and the event log. -/
namespace Sys2Proof.Machine

/-! ### Updates of one item of a table -/

def State.modPt (s : State) (p : Fin 268) (f : PointRun → PointRun) : State :=
  { s with pt := s.pt.set p.val (f s.pt[p]) p.isLt }

def State.modUn (s : State) (u : Fin 9) (f : UnitRun → UnitRun) : State :=
  { s with un := s.un.set u.val (f s.un[u]) u.isLt }

def State.setWin (s : State) (w : Fin 192) (x : WindowState) : State :=
  { s with win := s.win.set w.val x w.isLt }

def State.modGrp (s : State) (g : Fin 16) (f : GroupRun → GroupRun) : State :=
  { s with grp := s.grp.set g.val (f s.grp[g]) g.isLt }

def State.modPan (s : State) (p : Fin 4) (f : PanelRun → PanelRun) : State :=
  { s with pan := s.pan.set p.val (f s.pan[p]) p.isLt }

def State.modEqn (s : State) (k : Fin 32) (f : EquationRun → EquationRun) : State :=
  { s with eqn := s.eqn.set k.val (f s.eqn[k]) k.isLt }

def State.modOut (s : State) (o : Fin 16) (f : OutputRun → OutputRun) : State :=
  { s with out := s.out.set o.val (f s.out[o]) o.isLt }

def State.modNews (s : State) (u : Fin 9) (f : News → News) : State :=
  { s with news := s.news.set u.val (f s.news[u]) u.isLt }

def State.setClock (s : State) (c : HallClock) : State := { s with clock := c }

def State.setLink (s : State) (l : LinkRun) : State := { s with link := l }

def State.setStore (s : State) (x : StoreRun) : State := { s with store := x }

def State.setForces (s : State) (fs : List ForceEntry) : State := { s with forces := fs }

def State.setCfg (s : State) (c : Tables) : State := { s with cfg := c }

/-- Take `f` for each of `n` items in ascending order. -/
def each (n : Nat) (f : Fin n → State → State) (s : State) : State :=
  (List.finRange n).foldl (fun s i => f i s) s

/-- As `each`, counting the items for which `f` reports a change. -/
def countEach {α : Type} (items : List α) (f : α → State → State × Bool) (s : State) : State × Nat :=
  items.foldl (fun (acc : State × Nat) i =>
    let r := f i acc.1
    (r.1, if r.2 then acc.2 + 1 else acc.2)) (s, 0)

/-! ### Bytes -/

def byteOf (n : Nat) : Byte := BitVec.ofNat 8 n

/-- Least significant byte first (00 section 4.0). -/
def le16 (n : Nat) : List Byte := [byteOf n, byteOf (n / 256)]

def le32 (n : Nat) : List Byte :=
  [byteOf n, byteOf (n / 256), byteOf (n / 65536), byteOf (n / 16777216)]

/-- The byte at an offset of a body, as a number. -/
def rd8 (b : List Byte) (i : Nat) : Nat := (b.getD i 0#8).toNat

def rd16 (b : List Byte) (i : Nat) : Nat := rd8 b i + 256 * rd8 b (i + 1)

def rd32 (b : List Byte) (i : Nat) : Nat := rd16 b i + 65536 * rd16 b (i + 2)

/-- A byte of flags, the first the least significant. -/
def flagsNat : List Bool → Nat
  | [] => 0
  | b :: bs => b.toNat + 2 * flagsNat bs

/-- A quantity saturated at the largest value of its field (R173). -/
def sat8 (n : Nat) : Byte := byteOf (min n 255)

def sat16 (n : Nat) : List Byte := le16 (min n 65535)

/-- Whole units of a time, rounded up. -/
def ceilDiv (n d : Nat) : Nat := (n + d - 1) / d

/-- A signed four-byte field in two's complement (11 section 11.1). -/
def leInt32 (n : Int) : List Byte := le32 (BitVec.ofInt 32 n).toNat

/-! ### The check word -/

/-- One bit of the CRC with polynomial x^16 + x^12 + x^5 + 1 (R152). -/
def crcBit (c : Word) (b : Bool) : Word :=
  if c.msb != b then (c <<< 1) ^^^ 0x1021#16 else c <<< 1

def crcByte (c : Word) (x : Byte) : Word :=
  [7, 6, 5, 4, 3, 2, 1, 0].foldl (fun c i => crcBit c (x.getLsbD i)) c

/-- The check word of a list of bytes, from 65535, most significant bit of each byte first (R152). -/
def crc16 (bs : List Byte) : Word := bs.foldl crcByte 0xFFFF#16

/-! ### Codes (11 sections 11.1 to 11.4) -/

def PointState.code : PointState → Nat
  | .normal => 0
  | .abnormal => 1

def PointState.bit (x : PointState) : Bool := x == .abnormal

def PointState.ofBit (b : Bool) : PointState := if b then .abnormal else .normal

def PointKind.code : PointKind → Nat
  | .alarm => 0 | .status => 1 | .mode => 2 | .key => 3 | .spare => 4 | .system => 5

def Sense.code : Sense → Nat
  | .alarmOnClosed => 0 | .alarmOnOpen => 1

def Mode.code : Mode → Nat
  | .stopped => 0 | .generate => 1 | .pump => 2 | .condense => 3 | .changeover => 4 | .common => 5

def SeqType.code : SeqType → Nat
  | .seqF => 0 | .seqA => 1 | .seqN => 2 | .seqS => 3

/-- C1..C4 as 1..4. -/
def WindowClass.code : WindowClass → Nat
  | .c1 => 1 | .c2 => 2 | .c3 => 3 | .c4 => 4

def Colour.code : Colour → Nat
  | .white => 0 | .amber => 1 | .red => 2

def WindowState.code : WindowState → Nat
  | .quiet => 0 | .alert => 1 | .held => 2 | .returned => 3

def Pattern.code : Pattern → Nat
  | .off => 0 | .steady => 1 | .fast => 2 | .slow => 3 | .first => 4 | .wink => 5

def GroupState.code : GroupState → Nat
  | .armed => 0 | .settling => 1 | .captured => 2

def LinkState.code : LinkState → Nat
  | .disabled => 0 | .starting => 1 | .up => 2 | .lost => 3

def EquationState.code : EquationState → Nat
  | .unused => 0 | .disarmed => 1 | .idle => 2 | .timing => 3 | .tripped => 4 | .blocked => 5

def ClockState.code : ClockState → Nat
  | .unset => 0 | .free => 1 | .locked => 2

def Service.code : Service → Nat
  | .unconfigured => 0 | .commissioning => 1 | .inService => 2

def StoreState.code : StoreState → Nat
  | .idle => 0 | .saving => 1 | .failed => 2

def LinkSpeed.code : LinkSpeed → Nat
  | .b9600 => 0 | .b19200 => 1 | .b38400 => 2 | .b57600 => 3 | .b115200 => 4

def ForceOffReason.code : ForceOffReason → Nat
  | .request => 0 | .expiry => 1 | .reconfig => 2 | .clear => 3

def OperatorAction.code : OperatorAction → Nat
  | .ack => 0 | .silence => 1 | .reset => 2 | .groupReset => 3 | .lampTest => 4 | .brightness => 5

def TripEndReason.code : TripEndReason → Nat
  | .cancelCondition => 0 | .cancelBlock => 1 | .followClear => 2 | .reset => 3 | .service => 4

def OutputEvent.code : OutputEvent → Nat
  | .fault => 0 | .faultCleared => 1 | .manualSet => 2 | .manualClear => 3

def ClockReason.code : ClockReason → Nat
  | .set => 0 | .snap => 1 | .reject => 2 | .lapse => 3 | .disable => 4

def ServiceCause.code : ServiceCause → Nat
  | .request => 0 | .powerOn => 1 | .powerOnDefaults => 2 | .resetLine => 3
  | .resetLineDefaults => 4 | .clearAll => 5

def TermSource.code : TermSource → Nat
  | .point _ => 1 | .equation _ => 2 | .mode _ => 3

def TermSource.index : TermSource → Nat
  | .point p => p.val | .equation k => k.val | .mode u => u.val

/-- P1..P4 as 1..4, NONE and LINK as 0. -/
def panelCode : Option (Fin 4) → Nat
  | none => 0
  | some p => p.val + 1

/-- A point number, 65535 for NONE. -/
def pointCode : Option (Fin 268) → Nat
  | none => 65535
  | some p => p.val

/-- A window or group number, 255 for NONE. -/
def optCode {n : Nat} : Option (Fin n) → Nat
  | none => 255
  | some i => i.val

def TimeStamp.bytes (t : TimeStamp) : List Byte := le16 t.day.toNat ++ le32 t.dayTime

/-! ### Log records as bytes (11 section 11.4) -/

def RecordBody.kind : RecordBody → Nat
  | .point .. => 1 | .chatterOn .. => 2 | .chatterOff .. => 3 | .forceOn .. => 4
  | .forceOff .. => 5 | .mode .. => 6 | .operator .. => 7 | .firstOut .. => 8 | .trip .. => 9
  | .tripEnd .. => 10 | .output .. => 11 | .clock .. => 12 | .gap .. => 13 | .service .. => 14

/-- Kind, index and time of a cause, zeros where it is absent (R173). -/
def causeBytes : Option TripCause → List Byte
  | none => [0#8] ++ le16 0 ++ TimeStamp.zero.bytes
  | some c => [byteOf c.source.code] ++ le16 c.source.index ++ c.time.bytes

def PointFlags.nat (f : PointFlags) : Nat := flagsNat [f.forced, f.startup, f.system, f.unforce]

def RecordBody.bytes : RecordBody → List Byte
  | .point p st f e => le16 p.val ++ [byteOf st.code, byteOf f.nat] ++ e.bytes
  | .chatterOn p sc => le16 p.val ++ [sat8 sc]
  | .chatterOff p st n => le16 p.val ++ [byteOf st.code] ++ sat16 n
  | .forceOn p v => le16 p.val ++ [byteOf v.code, 0#8]
  | .forceOff p v r => le16 p.val ++ [byteOf v.code, byteOf r.code]
  | .mode u o n => [byteOf u.val, byteOf o.code, byteOf n.code]
  | .operator a src n => [byteOf a.code, byteOf (panelCode src)] ++ sat16 n
  | .firstOut g t ps =>
    [byteOf g.val, byteOf ps.length] ++ t.bytes ++ ps.flatMap fun p => le16 p.val
  | .trip k outs c => [byteOf k.val] ++ le16 outs.toNat ++ causeBytes c
  | .tripEnd k r => [byteOf k.val, byteOf r.code]
  | .output o e => [byteOf o.val, byteOf e.code]
  | .clock st r c => leInt32 st ++ [byteOf r.code, byteOf c.code]
  | .gap n f l => sat16 n ++ f.bytes ++ l.bytes
  | .service st c => [byteOf st.code, byteOf c.code]

/-- A whole record: the ten-byte head and the body (R146). -/
def LogRecord.bytes (r : LogRecord) : List Byte :=
  [byteOf r.body.kind, byteOf (10 + r.body.bytes.length)] ++ le16 r.seq.toNat ++ r.stamp.bytes ++
    r.body.bytes

/-! ### The event log (08 section 8.5) -/

def RecordBody.isGap : RecordBody → Bool
  | .gap .. => true
  | _ => false

/-- The newest held record is a GAP record. -/
def EventLog.newestIsGap (l : EventLog) : Bool :=
  match l.recs.getLast? with
  | some r => r.body.isGap
  | none => false

/-- A record takes the next sequence number and the present time stamp (R146). -/
def EventLog.store (t : TimeStamp) (b : RecordBody) (l : EventLog) : EventLog :=
  { recs := l.recs ++ [⟨l.next, t, b⟩], next := l.next + 1 }

/-- A loss raises the count of a newest GAP, saturating, and moves its last lost time (R147). -/
def LogRecord.countLoss (t : TimeStamp) (r : LogRecord) : LogRecord :=
  match r.body with
  | .gap n f _ => { r with body := .gap (min 65535 (n + 1)) f t }
  | _ => r

def EventLog.countLoss (t : TimeStamp) (l : EventLog) : EventLog :=
  match l.recs.getLast? with
  | some r => { l with recs := l.recs.dropLast ++ [r.countLoss t] }
  | none => l

/-- How the log takes a record handed to it (R147). -/
def EventLog.put (t : TimeStamp) (b : RecordBody) (l : EventLog) : EventLog :=
  if l.recs.length < Config.logOrdinary then l.store t b
  else if l.newestIsGap then l.countLoss t
  else l.store t (.gap 1 t t)

/-- How many records a release of up to `k` removes: never a newest GAP (R149). -/
def EventLog.releasable (k : Nat) (l : EventLog) : Nat :=
  min k (if l.newestIsGap then l.recs.length - 1 else l.recs.length)

def EventLog.release (k : Nat) (l : EventLog) : EventLog :=
  { l with recs := l.recs.drop (l.releasable k) }

/-- The log holds 1024 records with a GAP as newest: the condition of point 261 (R148). -/
def EventLog.full (l : EventLog) : Bool :=
  l.recs.length == Config.logOrdinary + 1 && l.newestIsGap

/-- The present time stamp of the hall clock (R136). -/
def State.stamp (s : State) : TimeStamp := s.clock.stamp

/-- The log takes a record (R146, R147). -/
def State.put (s : State) (b : RecordBody) : State := { s with log := s.log.put s.stamp b }

/-- System point 256 + k (R13). -/
def sysPoint (k : Fin 12) : Fin 268 := ⟨256 + k.val, by omega⟩

/-- The runtime values that a system point's transition to `c` leaves (R13). -/
def State.setSys (s : State) (k : Fin 12) (c : Bool) : State :=
  s.modPt (sysPoint k) fun r => { r with raw := c, qual := PointState.ofBit c, lastEdge := s.stamp }

/-- The POINT record of a system point's transition to `c` at `t` (R13, R14). -/
def sysRecord (startup : Bool) (k : Fin 12) (c : Bool) (t : TimeStamp) : RecordBody :=
  .point (sysPoint k) (PointState.ofBit c) { system := true, startup := startup } t

/-- A block hands a record to the Event Log. A record that fills the log begins the condition of point
261 there and then: the point is ABNORMAL and its POINT record is counted in the GAP (R147, R148). What
the point drives takes the change in `logged`. -/
def State.write (s : State) (b : RecordBody) : State :=
  let t := s.put b
  if t.log.full && !s.log.full then (t.setSys 5 true).put (sysRecord false 5 true s.stamp) else t

/-! ### News (R160) -/

def News.set (n : News) : NewsKind → News
  | .alert => { n with alert := true }
  | .trip => { n with trip := true }
  | .mode => { n with mode := true }
  | .fault => { n with fault := true }

def State.setNews (s : State) (u : Fin 9) (k : NewsKind) : State := s.modNews u fun n => n.set k

/-! ### Timers and time stamps -/

/-- A timer has run for its full duration at `now`. -/
def Timer.due (t : Timer) (now : Nat) : Bool := t.start + t.dur ≤ now

/-- The clock units a timer has left at `now`. -/
def Timer.left (t : Timer) (now : Nat) : Nat := t.start + t.dur - now

/-- An optional timer is running and has run out. -/
def Timer.dueOpt (t : Option Timer) (now : Nat) : Bool := t.any fun t => t.due now

def Timer.leftOpt (t : Option Timer) (now : Nat) : Nat := (t.map fun t => t.left now).getD 0

/-- A timer known by its start alone, with duration `d`, is running and has run out. -/
def dueSince (start : Option Nat) (d now : Nat) : Bool := start.any fun t => t + d ≤ now

def leftSince (start : Option Nat) (d now : Nat) : Nat := (start.map fun t => t + d - now).getD 0

/-- The next clock unit of a time stamp (R136). -/
def TimeStamp.tick (t : TimeStamp) : TimeStamp :=
  if t.dayTime + 1 < Config.unitsPerDay then { t with dayTime := t.dayTime + 1 }
  else { day := t.day + 1, dayTime := 0 }

/-- E is earlier than the stamp (R66): a smaller day-time on one day, or a day that reaches the
stamp's day by adding 1 to 32767 days. A difference of 32768 days is read as later. -/
def TimeStamp.earlier (e t : TimeStamp) : Bool :=
  if e.day = t.day then e.dayTime < t.dayTime
  else (t.day - e.day).toNat ≤ 32767

end Sys2Proof.Machine
end

