-- ==== Sys2Proof/Machine/Flags.lean ====
section
/-! DEFINITION. The flags and views that are derived from the stored fields: effective state, active
flag, condition, marker, lamp code, system point conditions, demand, attention line, horn. -/
namespace Sys2Proof.Machine

/-- Field points are qualified, equations run and outputs are driven: the service state is not
UNCONFIGURED and no start-up settle runs (R1, R123, R127, R166). -/
def State.operating (s : State) : Bool := s.service != .unconfigured && s.settle.isNone

/-! ### Points -/

/-- Kinds ALARM, STATUS, MODE and KEY are qualified (R1). -/
def PointKind.qualified : PointKind → Bool
  | .alarm | .status | .mode | .key => true
  | .spare | .system => false

/-- Kinds ALARM and SYSTEM can be active (R1). -/
def PointKind.annunciates : PointKind → Bool
  | .alarm | .system => true
  | .status | .mode | .key | .spare => false

/-- A field point by its contact's number. -/
def fieldPoint (p : Fin 256) : Fin 268 := ⟨p.val, by omega⟩

/-- The level L: the contact level mapped through the sense (R5). -/
def mapLevel (sense : Sense) (level : Bool) : PointState :=
  match sense with
  | .alarmOnClosed => PointState.ofBit level
  | .alarmOnOpen => PointState.ofBit (!level)

def State.level (s : State) (p : Fin 268) : PointState :=
  mapLevel s.cfg.points[p].sense s.pt[p].raw

/-- The forced value, where the Force Table holds an entry for the point. -/
def State.forcedValue (s : State) (p : Fin 268) : Option PointState :=
  (s.forces.find? fun e => e.point = p).map (·.value)

def State.forced (s : State) (p : Fin 268) : Bool := (s.forcedValue p).isSome

/-- The effective state: the forced value, otherwise the qualified state (R11). -/
def State.effective (s : State) (p : Fin 268) : PointState :=
  (s.forcedValue p).getD s.pt[p].qual

/-- The mode mask holds a mode; COMMON stands in no mask (01 section 1.1). -/
def maskHas (m : BitVec 5) (x : Mode) : Bool := m.getLsbD x.code

/-- The unit a point's change carries: its unit field, and unit 0 for a system point (R13, R41). -/
def State.pointUnit (s : State) (p : Fin 268) : Fin 9 :=
  if p.val < 256 then s.cfg.points[p].unit else 0

/-- The three conditions of R12. -/
def State.isActive (s : State) (p : Fin 268) : Bool :=
  let c := s.cfg.points[p]
  c.kind.annunciates &&
  (s.effective p == .abnormal || (!s.forced p && s.pt[p].chattering)) &&
  (c.unit == 0 || 256 ≤ p.val || maskHas c.mask s.un[c.unit].current)

/-- The causes that make a capture event (R65). -/
def Cause.captures : Cause → Bool
  | .qualify | .system | .force => true
  | .unforce | .chatter | .mode | .reconfig | .startup => false

/-! ### Windows -/

/-- The window a point contributes to: kind ALARM or SYSTEM and a window field that names it (R39). -/
def PointConfig.contributes (c : PointConfig) : Option (Fin 192) :=
  if c.kind.annunciates then c.window else none

/-- The group a point is a member of (R65). -/
def PointConfig.memberOf (c : PointConfig) : Option (Fin 16) :=
  if c.kind.annunciates then c.group else none

/-- The contributor list of a window, in ascending point number (R39). -/
def Tables.contributors (c : Tables) (w : Fin 192) : List (Fin 268) :=
  (List.finRange 268).filter fun p => c.points[p].contributes == some w

/-- The condition: at least one contributor is active (03 section 3.1). -/
def State.condition (s : State) (w : Fin 192) : Bool :=
  (s.cfg.contributors w).any fun p => s.pt[p].active

/-- The point is in the first-out set of some group. -/
def State.inFirstOut (s : State) (p : Fin 268) : Bool :=
  (List.finRange 16).any fun g => s.grp[g].firstOut.contains p

/-- The first-out marker (R57). -/
def State.marker (s : State) (w : Fin 192) : Bool :=
  (s.cfg.contributors w).any fun p => s.inFirstOut p

/-- The chatter indication (R58). -/
def State.chatterIndication (s : State) (w : Fin 192) : Bool :=
  (s.cfg.contributors w).any fun p => s.pt[p].chattering && !s.forced p

/-- The pattern of a window's lamp code (R59). -/
def lampPattern (seq : SeqType) (x : WindowState) (marker chatter : Bool) : Pattern :=
  match seq, x with
  | .seqS, .held => .steady
  | .seqS, _ => .off
  | _, .quiet => .off
  | _, .alert => if marker then .first else .fast
  | _, .held => if marker then .first else if chatter then .wink else .steady
  | _, .returned => .slow

/-- A lamp code byte: pattern in bits 0..2, colour in bits 3..4 (11 section 11.1). -/
def lampByte (p : Pattern) (c : Colour) : Byte := byteOf (p.code + 8 * c.code)

/-- The lamp code of a window (R59). -/
def State.lampCode (s : State) (w : Fin 192) : Byte :=
  let c := s.cfg.windows[w]
  lampByte (lampPattern c.seq s.win[w] (s.marker w) (s.chatterIndication w)) c.colour

/-! ### Panels, call sets and horns -/

def ClassSet.has (c : ClassSet) : WindowClass → Bool
  | .c1 => c.c1 | .c2 => c.c2 | .c3 => c.c3 | .c4 => c.c4

def ClassSet.add (c : ClassSet) : WindowClass → ClassSet
  | .c1 => { c with c1 := true }
  | .c2 => { c with c2 := true }
  | .c3 => { c with c3 := true }
  | .c4 => { c with c4 := true }

/-- The members of the set for which `f` holds. -/
def ClassSet.keep (c : ClassSet) (f : WindowClass → Bool) : ClassSet :=
  ⟨c.c1 && f .c1, c.c2 && f .c2, c.c3 && f .c3, c.c4 && f .c4⟩

/-- The highest class of the set, C1 first (R98). -/
def ClassSet.highest (c : ClassSet) : Option WindowClass :=
  if c.c1 then some .c1 else if c.c2 then some .c2 else if c.c3 then some .c3
  else if c.c4 then some .c4 else none

def ClassSet.size (c : ClassSet) : Nat := c.c1.toNat + c.c2.toNat + c.c3.toNat + c.c4.toNat

def ClassSet.nat (c : ClassSet) : Nat := flagsNat [c.c1, c.c2, c.c3, c.c4]

/-- A window of this class on the panel's position list is in ALERT (R51). -/
def State.alertOn (s : State) (p : Fin 4) (c : WindowClass) : Bool :=
  s.cfg.panels[p].positions.any fun w => s.win[w] == .alert && s.cfg.windows[w].cls == c

/-- The panel's position list holds the window. -/
def State.shows (s : State) (p : Fin 4) (w : Fin 192) : Bool :=
  s.cfg.panels[p].positions.contains w

/-- The horn output Hn at this moment, by the cadences of R98 and the chime of R99. -/
def State.hornOn (s : State) (p : Fin 4) : Bool :=
  match s.pan[p].horn with
  | .silent => false
  | .chime _ => true
  | .cadence .c1 _ => true
  | .cadence .c2 t => (s.now - t) % 10000 < 6000
  | .cadence .c3 t => (s.now - t) % 10000 < 3000
  | .cadence .c4 t => (s.now - t) % 20000 < 2000

/-! ### Equations and outputs -/

/-- The value of a term (R102). -/
def State.term (s : State) : Term → Bool
  | .const v => v
  | .point p => s.effective p == .abnormal
  | .equation k => s.eqn[k].state == .tripped
  | .mode u m => s.un[u].current == m

/-- The function of the two term values: bit 2A + B of the code (R103). -/
def condOf (f : Fin 16) (a b : Bool) : Bool := f.val.testBit (2 * a.toNat + b.toNat)

/-- An equation of the unit has a remaining delay of this many clock units (R110). -/
def State.delayLeft (s : State) (k : Fin 32) : Nat :=
  match s.eqn[k].state with
  | .timing => leftSince s.eqn[k].timing (s.cfg.equations[k].delay * Config.unitsPerMs) s.now
  | _ => 0

/-- An output is demanded (R126). -/
def OutputRun.demanded (r : OutputRun) : Bool := r.demanding != 0#32 || r.manual

/-- The readback agrees with the commanded state (R130). -/
def OutputRun.agrees (r : OutputRun) : Bool := r.readback == r.commanded

/-! ### The store and the conditions of the system points -/

/-- The store state (R169): SAVING while a save runs, FAILED after a failed one. -/
def StoreRun.state (x : StoreRun) : StoreState :=
  if x.job.isSome then .saving else if x.lastFailed then .failed else .idle

def State.saving (s : State) : Bool := s.store.job.isSome

/-- The condition of the clock's system point (R137). -/
def clockUnlocked (c : ClockState) (minutePulse : Bool) : Bool :=
  match c with
  | .unset => true
  | .free => minutePulse
  | .locked => false

/-- The condition of system point 256 + k, held by its owning block (R13). -/
def State.sysCond (s : State) (k : Fin 12) : Bool :=
  match k with
  | 0 => s.pan[(0 : Fin 4)].link == .lost
  | 1 => s.pan[(1 : Fin 4)].link == .lost
  | 2 => s.pan[(2 : Fin 4)].link == .lost
  | 3 => s.pan[(3 : Fin 4)].link == .lost
  | 4 => clockUnlocked s.clock.state s.cfg.settings.minutePulse
  | 5 => s.log.full
  | 6 => (List.finRange 16).any fun o => s.out[o].fault
  | 7 => !s.forces.isEmpty
  | 8 => s.store.differs
  | 9 => s.link.silent
  | 10 => (List.finRange 9).any fun u => s.un[u].blocked
  | 11 => s.store.lastFailed

/-- The attention line is asserted (R161). -/
def State.attention (s : State) : Bool :=
  let e := s.cfg.settings.enables
  ((List.finRange 9).any fun u =>
    let n := s.news[u]
    (n.alert && e.alert) || (n.trip && e.trip) || (n.mode && e.mode) || (n.fault && e.fault)) ||
  (!s.log.recs.isEmpty && e.log)

end Sys2Proof.Machine
end

