-- ==== Sys2Proof/Machine/Groups.lean ====
section
/-! DEFINITION. The First-Out Recorder (04 sections 4.2 to 4.4). -/
namespace Sys2Proof.Machine

/-- The subsequent count saturates at 255. -/
def GroupRun.later (r : GroupRun) (n : Nat) : GroupRun :=
  { r with subsequent := min 255 (r.subsequent + n) }

/-- How many points an earlier edge of `p` displaces (R68). -/
def GroupRun.displaced (r : GroupRun) (p : Fin 268) : Nat :=
  r.firstOut.length - (if r.firstOut.contains p then 1 else 0)

/-- A capture event of `p` at time `e` in SETTLING, against the stamp `t` (R68, R69, R70). -/
def GroupRun.settleEvent (r : GroupRun) (p : Fin 268) (e t : TimeStamp) : GroupRun :=
  if e = t then
    if r.firstOut.contains p then r.later 1
    else if r.firstOut.length < Config.firstOutCapacity then
      { r with firstOut := r.firstOut ++ [p] }
    else { r.later 1 with overfull := true }
  else if e.earlier t then
    { r.later (r.displaced p) with firstOut := [p], stamp := some e, overfull := false }
  else r.later 1

/-- A capture event of `p` at `e` in ARMED, with resolve window `resolve` ms, taken at `now` (R67). -/
def GroupRun.firstEvent (r : GroupRun) (p : Fin 268) (e : TimeStamp) (resolve now : Nat) : GroupRun :=
  { r with
    state := if resolve = 0 then .captured else .settling
    firstOut := [p]
    stamp := some e
    timer := if resolve = 0 then none else some ⟨now, resolve * Config.unitsPerMs⟩ }

/-- The FIRST_OUT record of a group (R71). -/
def putFirstOut (g : Fin 16) (s : State) : State :=
  s.write (.firstOut g (s.grp[g].stamp.getD TimeStamp.zero) s.grp[g].firstOut)

/-- A group takes a capture event (R67 to R70, R72). -/
def captureEvent (g : Fin 16) (p : Fin 268) (e : TimeStamp) (s : State) : State :=
  match s.grp[g].state with
  | .armed =>
    let resolve := s.cfg.groups[g].resolve
    let s := s.modGrp g fun r => r.firstEvent p e resolve s.now
    if resolve = 0 then putFirstOut g s else s
  | .settling => s.modGrp g fun r => r.settleEvent p e (r.stamp.getD e)
  | .captured => s.modGrp g fun r => r.later 1

/-- The settle timer has expired (R71). -/
def captureGroup (g : Fin 16) (s : State) : State :=
  putFirstOut g (s.modGrp g fun r => { r with state := .captured, timer := none })

/-- A group re-armed, its settle timer stopped (R73, R77). -/
def GroupRun.rearmed (r : GroupRun) : GroupRun :=
  { r with state := .armed, firstOut := [], stamp := none, subsequent := 0, overfull := false,
           timer := none }

def rearmGroup (g : Fin 16) (s : State) : State := s.modGrp g GroupRun.rearmed

/-- The home-panel test: CAPTURED and no point of the set active (R75). -/
def State.mayRearm (s : State) (g : Fin 16) : Bool :=
  s.grp[g].state == .captured && s.grp[g].firstOut.all fun p => !s.pt[p].active

/-- A RESET press of a panel taken by one group, and whether it re-armed the group (R75). -/
def rearmAtHome (panel : Fin 4) (g : Fin 16) (s : State) : State × Bool :=
  if s.cfg.groups[g].home = some panel ∧ s.mayRearm g = true then (rearmGroup g s, true) else (s, false)

/-- A RESET press re-arms the groups at home on the panel, in ascending number, counted (R75). -/
def rearmHome (panel : Fin 4) (s : State) : State × Nat :=
  countEach (List.finRange 16) (rearmAtHome panel) s

end Sys2Proof.Machine
end

