-- ==== Sys2Proof/Machine/Outputs.lean ====
section
/-! DEFINITION. The Output Stage's demand and commanded states (07 sections 7.1 and 7.2). -/
namespace Sys2Proof.Machine

/-- The verify timer of an output, started now with its verify time, where readback is PRESENT (R130). -/
def State.freshVerify (s : State) (o : Fin 16) : Option Timer :=
  let c := s.cfg.outputs[o]
  if c.readback then some ⟨s.now, c.verify * Config.unitsPerMs⟩ else none

/-- Bring the commanded state to `v`. A change starts the verify timer (R130). -/
def setCommanded (o : Fin 16) (v : Bool) (s : State) : State :=
  if s.out[o].commanded = v then s
  else s.modOut o fun r => { r with commanded := v, verify := s.freshVerify o }

/-- A pulse starts with the output's pulse width (R128). -/
def startPulse (o : Fin 16) (s : State) : State :=
  setCommanded o true
    (s.modOut o fun r =>
      { r with pulse := some ⟨s.now, s.cfg.outputs[o].width * Config.unitsPerMs⟩ })

/-- A rise or a fall of demand acts on the commanded state (R127, R128), under the service gate. -/
def applyDemand (o : Fin 16) (before : Bool) (s : State) : State :=
  let after := s.out[o].demanded
  if before = after || !s.operating then s
  else match s.cfg.outputs[o].kind with
    | .sustained => setCommanded o after s
    | .pulse => if after && s.out[o].pulse.isNone then startPulse o s else s

/-- Change what demands an output and form its demand again (R126, R133). -/
def changeDemand (o : Fin 16) (f : OutputRun → OutputRun) (s : State) : State :=
  applyDemand o s.out[o].demanded (s.modOut o f)

/-- Equation `k` has entered TRIPPED: it demands every output of its output set (R126). -/
def demandBy (k : Fin 32) (s : State) : State :=
  each 16 (fun o s =>
    if s.cfg.equations[k].outs.getLsbD o.val then
      changeDemand o (fun r => { r with demanding := r.demanding ||| (1#32 <<< k.val) }) s
    else s) s

/-- Equation `k` has left TRIPPED: every output that holds it releases it (R126). -/
def releaseBy (k : Fin 32) (s : State) : State :=
  each 16 (fun o s =>
    if s.out[o].demanding.getLsbD k.val then
      changeDemand o (fun r => { r with demanding := r.demanding &&& ~~~(1#32 <<< k.val) }) s
    else s) s

/-- The commanded state of a pulse ends with its timer (R128). -/
def endPulse (o : Fin 16) (s : State) : State :=
  setCommanded o false (s.modOut o fun r => { r with pulse := none })

/-- A change of kind forms the commanded state again at once (R129): SUSTAINED to PULSE starts a pulse
where the output is demanded; PULSE to SUSTAINED cancels a running pulse and follows the demand. -/
def changeKind (o : Fin 16) (kind : OutputKind) (s : State) : State :=
  match kind with
  | .pulse =>
    if s.operating && s.out[o].demanded then startPulse o s else s
  | .sustained =>
    setCommanded o (s.operating && s.out[o].demanded) (s.modOut o fun r => { r with pulse := none })

/-- A change of readback: ABSENT stops the verify timer, PRESENT starts it (R124). -/
def changeReadback (o : Fin 16) (s : State) : State :=
  s.modOut o fun r => { r with verify := s.freshVerify o }

end Sys2Proof.Machine
end

