-- ==== Sys2Proof/Machine/Trip.lean ====
section
/-! DEFINITION. Trip Logic: terms, timing, tripping, release, installation and unit blocking
(06 sections 6.2 to 6.7). `hand` stands for handing an entry to or exit from TRIPPED to the higher
equations; it is tied to itself in `handEquation`. -/
namespace Sys2Proof.Machine

/-- The term reads this source (R102). -/
def Term.names : Term → TermSource → Bool
  | .point p, .point q => p == q
  | .equation k, .equation j => k == j
  | .mode u _, .mode v => u == v
  | _, _ => false

/-- The equations an active or pending record's terms name are all lower than `n` (R104). -/
def Term.below (n : Nat) : Term → Bool
  | .equation k => k.val < n
  | .const _ | .point _ | .mode _ _ => true

/-- The term values and condition of an equation, formed from its active record (R107). -/
def formTerms (k : Fin 32) (s : State) : State :=
  let e := s.cfg.equations[k]
  let a := s.term e.a
  let b := s.term e.b
  s.modEqn k fun r => { r with a := a, b := b, cond := condOf e.func a b }

/-- The state an equation takes from its active record and condition (R107, R122, R123). -/
def State.restState (s : State) (k : Fin 32) : EquationState :=
  let e := s.cfg.equations[k]
  if !s.operating || !e.inUse then .unused
  else if s.eqn[k].cond then .disarmed
  else if s.un[e.unit].blocked then .blocked
  else .idle

/-- An equation set anew from its active record: terms formed, cause absent, state set (R107, R122). -/
def seedEquation (k : Fin 32) (s : State) : State :=
  let s := formTerms k s
  s.modEqn k fun r => { r with state := s.restState k, timing := none, cause := none }

/-- Installation of a record (R107). -/
def install (k : Fin 32) (rec : EquationRecord) (s : State) : State :=
  seedEquation k
    ((s.setCfg { s.cfg with equations := s.cfg.equations.set k.val rec k.isLt }).modEqn k fun r =>
      { r with staged := none, overwrite := false })

/-- Installation of the pending record, where one is held (R107). -/
def installStaged (k : Fin 32) (s : State) : State :=
  match s.eqn[k].staged with
  | none => s
  | some rec => install k rec s

/-- A timing ends without a trip: the new state, the TRIP_END record, the pending record (R110, R119). -/
def cancelTiming (k : Fin 32) (dest : EquationState) (reason : TripEndReason) (s : State) : State :=
  installStaged k
    ((s.modEqn k fun r => { r with state := dest, timing := none }).write (.tripEnd k reason))

/-- Entry to TRIPPED: TRIP record, TRIP news, the outputs, the higher equations (R112). -/
def enterTripped (hand : Fin 32 → State → State) (k : Fin 32) (s : State) : State :=
  let e := s.cfg.equations[k]
  let s := s.modEqn k fun r => { r with state := .tripped, timing := none }
  let s := s.write (.trip k e.outs s.eqn[k].cause)
  let s := s.setNews e.unit .trip
  hand k (demandBy k s)

/-- Where a released equation goes: by its after-trip field and its unit (R115). -/
def State.releasedState (s : State) (k : Fin 32) : EquationState :=
  let e := s.cfg.equations[k]
  match e.after with
  | .disarm => .disarmed
  | .rearm => if s.un[e.unit].blocked then .blocked else .idle

/-- Release of a trip (R115). -/
def release (hand : Fin 32 → State → State) (k : Fin 32) (reason : TripEndReason) (s : State) : State :=
  let s := s.write (.tripEnd k reason)
  let s := s.modEqn k fun r => { r with state := s.releasedState k }
  installStaged k (hand k (releaseBy k s))

/-- An equation at rest whose condition is true starts its delay, or trips at once under a delay of 0
(R109, R120). -/
def startTiming (hand : Fin 32 → State → State) (k : Fin 32) (s : State) : State :=
  if s.cfg.equations[k].delay = 0 then enterTripped hand k s
  else s.modEqn k fun r => { r with state := .timing, timing := some s.now }

/-- A change of condition under the rule for the equation's state (R109, R110, R114, R116). -/
def actOnCondition (hand : Fin 32 → State → State) (k : Fin 32) (s : State) : State :=
  match s.eqn[k].state, s.eqn[k].cond with
  | .idle, true => startTiming hand k s
  | .timing, false => cancelTiming k .idle .cancelCondition s
  | .tripped, false =>
    match s.cfg.equations[k].hold with
    | .follow => release hand k .followClear s
    | .latch => s
  | _, _ => s

/-- A change of a term's source reaches equation `k` with a time. Both terms that read the source take
their new values together; a condition that becomes true records its cause (R102, R113). No equation
acts in UNCONFIGURED or during a settle (R123). -/
def takeTermChange (hand : Fin 32 → State → State) (src : TermSource) (t : TimeStamp) (k : Fin 32)
    (s : State) : State :=
  let e := s.cfg.equations[k]
  let r := s.eqn[k]
  if !(e.a.names src || e.b.names src) then s
  else
    let a := if e.a.names src then s.term e.a else r.a
    let b := if e.b.names src then s.term e.b else r.b
    let c := condOf e.func a b
    let cause := if !r.cond && c && r.state != .unused then some ⟨src, t⟩ else r.cause
    let s := s.modEqn k fun r => { r with a := a, b := b, cond := c, cause := cause }
    if s.operating && c != r.cond then actOnCondition hand k s else s

/-- Hand an entry to or an exit from TRIPPED to every higher equation that names `k`, in ascending
number, each taken whole before the next (R112, R115, R117; log entry 12). The count bounds the depth:
a chain has at most 32 equations (R104). -/
def handEquation : Nat → Fin 32 → State → State
  | 0, _, s => s
  | n + 1, k, s =>
    each 32 (fun j s' =>
      if k < j then takeTermChange (handEquation n) (.equation k) s.stamp j s' else s') s

/-- Hand on to the higher equations with the depth that reaches every chain. -/
def handTrip (k : Fin 32) (s : State) : State := handEquation 32 k s

/-- A unit has become blocked (R119). -/
def blockEquation (k : Fin 32) (s : State) : State :=
  match s.eqn[k].state with
  | .idle => s.modEqn k fun r => { r with state := .blocked }
  | .timing => cancelTiming k .blocked .cancelBlock s
  | _ => s

/-- A unit has become unblocked (R120). -/
def unblockEquation (k : Fin 32) (s : State) : State :=
  match s.eqn[k].state with
  | .blocked =>
    let s := s.modEqn k fun r => { r with state := .idle }
    if s.eqn[k].cond then startTiming handTrip k s else s
  | _ => s

/-- The outcomes of TRIP_RESET and ARM (11 section 11.1). -/
inductive Outcome where | done | present | notNeeded | unused | notReady | idle
  deriving DecidableEq, Repr, Inhabited

def Outcome.code : Outcome → Nat
  | .done => 0 | .present => 1 | .notNeeded => 2 | .unused => 3 | .notReady => 4 | .idle => 5

/-- ARM of one equation (R118). -/
def armEquation (k : Fin 32) (s : State) : State × Outcome :=
  match s.eqn[k].state with
  | .disarmed =>
    if s.eqn[k].cond then (s, .present)
    else
      let dest := if s.un[s.cfg.equations[k].unit].blocked then .blocked else .idle
      (s.modEqn k fun r => { r with state := dest }, .done)
  | .unused => (s, .unused)
  | .idle | .timing | .tripped | .blocked => (s, .notNeeded)

/-- The return to UNCONFIGURED takes one equation (R123): TRIP_END with reason SERVICE from TIMING or
TRIPPED, the pending record installed, UNUSED with its cause absent, and an exit from TRIPPED handed
to the Output Stage alone. -/
def returnEquation (k : Fin 32) (s : State) : State :=
  let was := s.eqn[k].state
  let s := if was = .timing || was = .tripped then s.write (.tripEnd k .service) else s
  let s := s.modEqn k fun r => { r with state := .unused, timing := none, cause := none }
  let s := if was = .tripped then releaseBy k s else s
  installStaged k s

end Sys2Proof.Machine
end

