-- ==== Sys2Proof/Machine/Windows.lean ====
section
/-! DEFINITION. The Window Sequencer and the call sets, horns and chimes it acts on
(03 sections 3.3 to 3.6, 05 section 5.6). -/
namespace Sys2Proof.Machine

/-! ### Call sets and horns -/

/-- The horn after the call set becomes `new` (R98): silent once the set is empty, from the start of
the cadence where the set becomes non-empty or its highest class changes, else as it was. -/
def PanelRun.hornFor (r : PanelRun) (new : ClassSet) (now : Nat) : Horn :=
  match r.calls.highest, new.highest with
  | none, none => r.horn
  | some _, none => .silent
  | old, some c => if old = some c then r.horn else .cadence c now

/-- Give a panel a call set, its horn following (R97, R98). -/
def setCalls (p : Fin 4) (new : ClassSet) (s : State) : State :=
  s.modPan p fun r => { r with calls := new, horn := r.hornFor new s.now }

/-- For every panel whose position list holds the window, in ascending number. -/
def eachPanelOf (w : Fin 192) (f : Fin 4 → State → State) (s : State) : State :=
  each 4 (fun p s => if s.shows p w then f p s else s) s

/-- A call: the class into the call sets, the ALERT news of the arrival's unit (R50, R52). -/
def call (w : Fin 192) (u : Fin 9) (s : State) : State :=
  (eachPanelOf w (fun p s => setCalls p (s.pan[p].calls.add s.cfg.windows[w].cls) s) s).setNews u .alert

/-- Remove from a panel's call set each class with no window in ALERT on its list (R51, R79). -/
def pruneCalls (p : Fin 4) (s : State) : State :=
  setCalls p (s.pan[p].calls.keep (s.alertOn p)) s

/-- An exit from ALERT, taken after the window's new state is set (R51). -/
def exitAlert (w : Fin 192) (s : State) : State := eachPanelOf w pruneCalls s

/-- A panel takes a chime request (R99). -/
def takeChime (p : Fin 4) (s : State) : State :=
  match s.pan[p].calls.highest with
  | some _ => s
  | none => s.modPan p fun r => { r with horn := .chime s.now }

/-- The chime request of an entry to RETURN, where ringback is ON (R56). -/
def chimeRequest (w : Fin 192) (s : State) : State :=
  if s.cfg.windows[w].ringback then eachPanelOf w takeChime s else s

/-- Empty a panel's call set and end a chime on it (R88). -/
def silencePanel (p : Fin 4) (s : State) : State :=
  s.modPan p fun r => { r with calls := ClassSet.empty, horn := .silent }

/-! ### The sequences -/

/-- An arrival carrying a unit (R41, R43 to R46). -/
def arrival (w : Fin 192) (u : Fin 9) (s : State) : State :=
  match s.cfg.windows[w].seq with
  | .seqS => s.setWin w .held
  | .seqF | .seqA | .seqN => call w u (s.setWin w .alert)

/-- The event "condition false" (R43 to R46). -/
def conditionFalse (w : Fin 192) (s : State) : State :=
  match s.cfg.windows[w].seq, s.win[w] with
  | .seqF, .held => chimeRequest w (s.setWin w .returned)
  | .seqN, .alert => exitAlert w (s.setWin w .quiet)
  | .seqA, .held | .seqN, .held | .seqS, .held => s.setWin w .quiet
  | _, _ => s

/-- A departure (R41). -/
def departure (w : Fin 192) (s : State) : State :=
  if s.condition w then s else conditionFalse w s

/-- A change of the contributor list that changes no active flag: a condition event for a SEQ-N window
held in ALERT with its condition false (R40, R54). -/
def listChange (w : Fin 192) (s : State) : State :=
  match s.cfg.windows[w].seq, s.win[w] with
  | .seqN, .alert => departure w s
  | _, _ => s

/-- A window takes ACK, and reports whether its state changed (R47). -/
def ackWindow (w : Fin 192) (s : State) : State × Bool :=
  match s.win[w] with
  | .alert =>
    match s.cfg.windows[w].seq with
    | .seqS => (s, false)
    | .seqF =>
      if s.condition w then (exitAlert w (s.setWin w .held), true)
      else (chimeRequest w (exitAlert w (s.setWin w .returned)), true)
    | .seqA | .seqN =>
      (exitAlert w (s.setWin w (if s.condition w then .held else .quiet)), true)
  | .quiet | .held | .returned => (s, false)

/-- A window takes RESET, and reports whether its state changed (R48). -/
def resetWindow (w : Fin 192) (s : State) : State × Bool :=
  match s.cfg.windows[w].seq, s.win[w] with
  | .seqF, .returned => (s.setWin w .quiet, true)
  | _, _ => (s, false)

/-- ACK passed to the windows of a list that are in ALERT, counted (R87, R91). A window taken out of
ALERT by an earlier one of the same press does not arise: an ACK acts on its own window alone. -/
def ackWindows (ws : List (Fin 192)) (s : State) : State × Nat := countEach ws ackWindow s

/-- RESET passed to the windows of a list, counted (R89, R92). -/
def resetWindows (ws : List (Fin 192)) (s : State) : State × Nat := countEach ws resetWindow s

/-! ### Reconfiguration -/

/-- A change of sequence type from `old`, already written, converts the state (R53). -/
def convertWindow (w : Fin 192) (old : SeqType) (s : State) : State :=
  match s.cfg.windows[w].seq with
  | .seqS =>
    let was := s.win[w]
    let s := s.setWin w (if s.condition w then .held else .quiet)
    if was = .alert then exitAlert w s else s
  | .seqA | .seqN =>
    if old = .seqF && s.win[w] == .returned then s.setWin w .quiet else s
  | .seqF => s

/-- A change of class from `old`, already written (R55): a window in ALERT gives up its old class where
no window in ALERT on the panel has it. -/
def changeClass (w : Fin 192) (old : WindowClass) (s : State) : State :=
  match s.win[w] with
  | .alert =>
    eachPanelOf w
      (fun p s => setCalls p (s.pan[p].calls.keep fun c => c != old || s.alertOn p c) s) s
  | .quiet | .held | .returned => s

/-- Every window QUIET and every call set empty (R60, R62). -/
def quietWindows (s : State) : State :=
  each 4 silencePanel { s with win := tab fun _ => .quiet }

end Sys2Proof.Machine
end

