-- ==== Sys2Proof/Machine/Active.lean ====
section
/-! DEFINITION. Handing on a change of active flag, of effective state and of the full log, and the
transitions of the system points (01 sections 1.4 and 1.5, 08 section 8.5). -/
namespace Sys2Proof.Machine

/-- A change of the active flag of `p` reaches a window and a group: an arrival or a departure, and a
capture event where its cause makes one (R41, R65). -/
def deliverActive (p : Fin 268) (cause : Cause) (t : TimeStamp) (w : Option (Fin 192))
    (g : Option (Fin 16)) (s : State) : State :=
  let v := s.pt[p].active
  let s := match w with
    | none => s
    | some w => if v then arrival w (s.pointUnit p) s else departure w s
  match g with
  | none => s
  | some g => if v && cause.captures then captureEvent g p t s else s

/-- Form the active flag again, and a change of it reaches the given window and group (R12). -/
def changeActive (p : Fin 268) (cause : Cause) (t : TimeStamp) (w : Option (Fin 192))
    (g : Option (Fin 16)) (s : State) : State :=
  let v := s.isActive p
  if s.pt[p].active = v then s
  else deliverActive p cause t w g (s.modPt p fun r => { r with active := v })

/-! ### Point 261 -/

/-- The state of point 261 is handed to its window and its group, then to the equations that name it, in
ascending number (R11, R12, R148; log entry 4). Each equation reads the point as it stands when the equation is
taken: where one that takes the point's going NORMAL writes records that fill the log again, those after it in
number read it ABNORMAL already and take no change to NORMAL, a choice of the model (log entry 4). -/
def handLogOnce (cause : Cause) (s : State) : State :=
  let p := sysPoint 5
  let t := s.stamp
  let c := s.cfg.points[p]
  each 32 (takeTermChange handTrip (.point p) t) (changeActive p cause t c.contributes c.memberOf s)

/-- A change of point 261 is handed on. What takes its going NORMAL may write records that fill the log
again; its going ABNORMAL is then handed on too, a choice of the model (log entry 4). A full log stays
full. -/
def handLog (cause : Cause) (s : State) : State :=
  let t := handLogOnce cause s
  if t.pt[sysPoint 5].qual = s.pt[sysPoint 5].qual then t else handLogOnce cause t

/-- Take `f`, one effect of a block that may write records; where one of them has filled the log, the
transition of point 261 that this made is handed on next, before any further effect (R13, R148; log
entry 4). -/
def loggedAs (cause : Cause) (f : State → State) (s : State) : State :=
  let t := f s
  if t.pt[sysPoint 5].qual = s.pt[sysPoint 5].qual then t else handLog cause t

/-- As `loggedAs`, for every effect but those of a start-up settle's end. -/
def logged (f : State → State) (s : State) : State := loggedAs .system f s

/-- A block hands a record to the Event Log, and what point 261 drives takes the filling of the log (R146
to R148). -/
def State.record (s : State) (b : RecordBody) : State := logged (fun s => s.write b) s

/-- The OPERATOR record of an action, where its count is not 0 (R90). -/
def State.writeOperator (s : State) (a : OperatorAction) (src : Option (Fin 4)) (n : Nat) : State :=
  if n = 0 then s else s.write (.operator a src n)

/-- As `writeOperator`, and what point 261 drives takes the filling of the log. -/
def State.recordOperator (s : State) (a : OperatorAction) (src : Option (Fin 4)) (n : Nat) : State :=
  logged (fun s => s.writeOperator a src n) s

/-! ### Handing on -/

/-- Evaluate the active flag again and hand any change to the given window and group (R12). -/
def evalActiveTo (p : Fin 268) (cause : Cause) (t : TimeStamp) (w : Option (Fin 192))
    (g : Option (Fin 16)) (s : State) : State := logged (changeActive p cause t w g) s

/-- Evaluate the active flag again and hand any change to the window and the group that the point's
record names (R12, R39, R76). -/
def evalActive (p : Fin 268) (cause : Cause) (t : TimeStamp) (s : State) : State :=
  evalActiveTo p cause t s.cfg.points[p].contributes s.cfg.points[p].memberOf s

/-- Hand a change of a point's effective state or of a unit's mode to every equation, in ascending
number (R102; log entry 12). -/
def handTerm (src : TermSource) (t : TimeStamp) (s : State) : State :=
  each 32 (fun k => logged (takeTermChange handTrip src t k)) s

/-- Trip Logic takes a change of a unit's blocked state, equation by equation in ascending number
(R119, R120); it takes none in UNCONFIGURED or during a settle (R123). -/
def tripUnit (blocked : Bool) (u : Fin 9) (s : State) : State :=
  if s.operating then
    each 32 (fun k s =>
      if s.cfg.equations[k].unit = u then
        logged (if blocked then blockEquation k else unblockEquation k) s
      else s) s
  else s

/-- TRIP_RESET of one equation (R117). -/
def resetEquation (k : Fin 32) (s : State) : State × Outcome :=
  match s.eqn[k].state with
  | .tripped =>
    match s.cfg.equations[k].hold with
    | .latch =>
      if s.eqn[k].cond then (s, .present) else (logged (release handTrip k .reset) s, .done)
    | .follow => (s, .present)
  | .unused => (s, .unused)
  | .disarmed | .idle | .timing | .blocked => (s, .notNeeded)

/-! ### System points -/

/-- A system point transition to `c`, at the start or after it (R13, R14). The record of point 261 fills
no log: its going ABNORMAL finds the log full, its going NORMAL a GAP record as the newest (R148). -/
def sysTransition (startup : Bool) (k : Fin 12) (c : Bool) (s : State) : State :=
  let cause := if startup then .startup else .system
  let t := s.stamp
  let b := sysRecord startup k c t
  if k = 5 then handLog cause ((s.setSys k c).put b)
  else
    let p := sysPoint k
    let s := loggedAs cause (fun s => s.write b) (s.setSys k c)
    evalActive p cause t (handTerm (.point p) t s)

/-- System point 256 + k follows its owner's condition (R13). -/
def sysFollow (startup : Bool) (k : Fin 12) (s : State) : State :=
  let c := s.sysCond k
  if s.pt[sysPoint k].qual.bit = c then s else sysTransition startup k c s

end Sys2Proof.Machine
end

