-- ==== Sys2Proof/Machine/Units.lean ====
section
/-! DEFINITION. The Mode Decoder: decoding, changeover, changes of mode, blocking (02). -/
namespace Sys2Proof.Machine

/-- A mode point or block key is ABNORMAL; `absent` is what NONE counts as (R27, R33). -/
def State.roleAbnormal (s : State) (absent : Bool) : Option (Fin 268) → Bool
  | none => absent
  | some p => s.effective p == .abnormal

/-- The mode table of R27. -/
def decodedMode (run pump cond : Bool) : Mode :=
  if !run then .stopped else if cond then .condense else if pump then .pump else .generate

/-- The decoded mode of a unit from the effective states of its mode points (R27, R23). -/
def State.decode (s : State) (u : Fin 9) : Mode :=
  let c := s.cfg.units[u]
  if u = 0 then .common
  else decodedMode (s.roleAbnormal true c.run) (s.roleAbnormal false c.pump)
    (s.roleAbnormal false c.cond)

/-- The unit's block key is ABNORMAL (R33). -/
def State.keyBlocks (s : State) (u : Fin 9) : Bool := s.roleAbnormal false s.cfg.units[u].key

/-- The active flags of a unit's ALARM points are evaluated again, in ascending number (R32). -/
def evalUnit (u : Fin 9) (cause : Cause) (s : State) : State :=
  let t := s.stamp
  each 268 (fun p s =>
    if s.cfg.points[p].kind = .alarm && s.cfg.points[p].unit = u then evalActive p cause t s else s) s

/-- The MODE record and the MODE news of a change of current mode (R31 step 1). -/
def recordMode (u : Fin 9) (old new : Mode) (s : State) : State :=
  (s.write (.mode u old new)).setNews u .mode

/-- A change of current mode (R31): record and news, the points' active flags, the trip terms. That the Input
Qualifier is told before Trip Logic is log entry 12. -/
def changeMode (u : Fin 9) (new : Mode) (s : State) : State :=
  let old := s.un[u].current
  let s := logged (recordMode u old new) (s.modUn u fun r => { r with current := new })
  handTerm (.mode u) s.stamp (evalUnit u .mode s)

/-- The decoded mode formed again, and a change of it taken (R28, R29, R36). -/
def redecode (u : Fin 9) (s : State) : State :=
  let d := s.decode u
  if s.un[u].decoded = d then s
  else
    let s := s.modUn u fun r => { r with decoded := d }
    if s.un[u].current = .changeover then
      s.modUn u fun r => { r with target := some d, settle := some s.now }
    else if s.un[u].current = d then s
    else if !s.operating || s.cfg.units[u].settle = 0 then changeMode u d s
    else changeMode u .changeover
      (s.modUn u fun r => { r with target := some d, settle := some s.now })

/-- The settle timer has run out: the unit takes its target (R30). -/
def endChangeover (u : Fin 9) (s : State) : State :=
  let m := s.un[u].target.getD s.un[u].decoded
  changeMode u m (s.modUn u fun r => { r with target := none, settle := none })

/-- The settle timer of a unit has run for the configured settle time. -/
def State.settleDue (s : State) (u : Fin 9) : Bool :=
  dueSince s.un[u].settle (s.cfg.units[u].settle * Config.unitsPerSecond) s.now

/-- The blocked states of some units formed again from their keys: every flag first, then Trip Logic
unit by unit in ascending number, then system point 266 (R33; log entry 16). -/
def reblock (us : List (Fin 9)) (s : State) : State :=
  let changed := us.filter fun u => s.keyBlocks u != s.un[u].blocked
  let s := changed.foldl (fun s u => s.modUn u fun r => { r with blocked := !r.blocked }) s
  let s := changed.foldl (fun s u => tripUnit s.un[u].blocked u s) s
  sysFollow false 10 s

/-- The point is the RUN, PUMP or COND point of the unit. -/
def UnitConfig.modePoint (c : UnitConfig) (p : Fin 268) : Bool :=
  c.run == some p || c.pump == some p || c.cond == some p

/-- A change of effective state is handed to Trip Logic and, for a mode point or a block key, to the
Mode Decoder, in this order (R11; log entry 12). Several units that name one MODE point take its change in ascending number, a choice
of the model (log entry 29); those that name one block key change together (R33; log entry 16). -/
def handEffective (p : Fin 268) (t : TimeStamp) (s : State) : State :=
  let s := handTerm (.point p) t s
  let s := each 9 (fun u s => if s.cfg.units[u].modePoint p then redecode u s else s) s
  let keyed := (List.finRange 9).filter fun u => s.cfg.units[u].key == some p
  if keyed.isEmpty then s else reblock keyed s

end Sys2Proof.Machine
end

