-- ==== Sys2Proof/Machine/Points.lean ====
section
/-! DEFINITION. The Input Qualifier: debounce, qualification, the chatter filter, re-seeding and the
Force Table (01 sections 1.2, 1.3 and 1.6). -/
namespace Sys2Proof.Machine

/-! ### The chatter filter -/

/-- The chatter check (R10). -/
def chatterCheck (p : Fin 268) (s : State) : State :=
  let c := s.cfg.points[p]
  let r := s.pt[p]
  if !r.chattering && c.threshold ≤ r.score then
    let s := s.modPt p fun r => { r with chattering := true }
    if c.logging then s.record (.chatterOn p r.score) else s
  else if r.chattering && r.score ≤ c.threshold / 2 then
    let s := s.modPt p fun r => { r with chattering := false, suppressed := 0 }
    if c.logging then s.record (.chatterOff p r.qual r.suppressed) else s
  else s

/-- One point at an expiry of the decay timer (R8). -/
def decayPoint (p : Fin 268) (s : State) : State :=
  if s.cfg.points[p].kind.qualified && 0 < s.pt[p].score then
    evalActive p .chatter s.stamp
      (chatterCheck p (s.modPt p fun r => { r with score := r.score - 1 }))
  else s

/-! ### Debounce and qualification -/

/-- The suppressed count of a point rises by one, saturating (R6 step 2). -/
def PointRun.suppress (r : PointRun) : PointRun := { r with suppressed := min 65535 (r.suppressed + 1) }

/-- A qualification transition with edge time `e` (R6), its change of active flag handed to the given
window and group. The chatter check is step 1 and the suppressed count rises at step 2, so a
CHATTER_OFF record carries the count before this transition; the POINT record of step 2 stands before a
CHATTER_ON record. -/
def qualifyTo (w : Option (Fin 192)) (g : Option (Fin 16)) (p : Fin 268) (e : TimeStamp)
    (s : State) : State :=
  let c := s.cfg.points[p]
  let q := s.level p
  let was := s.pt[p].chattering
  let s := s.modPt p fun r =>
    { r with qual := q, debounce := none, lastEdge := e, score := min 255 (r.score + c.weight) }
  let s := if !was && c.logging then s.record (.point p q { forced := s.forced p } e) else s
  let s := chatterCheck p s
  let s := if was then s.modPt p PointRun.suppress else s
  if s.forced p then s else evalActiveTo p .qualify e w g (handEffective p e s)

/-- A qualification transition (R6). -/
def qualify (p : Fin 268) (e : TimeStamp) (s : State) : State :=
  qualifyTo s.cfg.points[p].contributes s.cfg.points[p].memberOf p e s

/-- The debounce of a point in clock units. -/
def State.debounceUnits (s : State) (p : Fin 268) : Nat :=
  s.cfg.points[p].debounce * Config.unitsPerMs

/-- A level change acts on the debounce timer of a qualified point (R5); with a debounce of 0 it
qualifies at once (R6). -/
def debounceLevel (p : Fin 268) (s : State) : State :=
  match s.pt[p].debounce with
  | none =>
    if s.level p = s.pt[p].qual then s
    else if s.cfg.points[p].debounce = 0 then qualify p s.stamp s
    else s.modPt p fun r => { r with debounce := some ⟨s.stamp, s.now⟩ }
  | some _ =>
    if s.level p = s.pt[p].qual then s.modPt p fun r => { r with debounce := none } else s

/-- A change of contact level (R5). -/
def contactLevel (p : Fin 268) (level : Bool) (s : State) : State :=
  if s.pt[p].raw = level then s
  else
    let s := s.modPt p fun r => { r with raw := level }
    if s.operating && s.cfg.points[p].kind.qualified then debounceLevel p s else s

/-- The debounce timer of a point has run out; its edge time (R6). -/
def State.debounceDue (s : State) (p : Fin 268) : Option TimeStamp :=
  match s.pt[p].debounce with
  | none => none
  | some d => if d.start + s.debounceUnits p ≤ s.now then some d.edge else none

/-- Re-seeding (R7), its change of active flag handed to the given window and group. -/
def reseed (w : Option (Fin 192)) (g : Option (Fin 16)) (p : Fin 268) (s : State) : State :=
  let t := s.stamp
  let old := s.pt[p].qual
  let q := s.level p
  let s := s.modPt p fun r => { r with qual := q, debounce := none, lastEdge := t }
  let s := if q != old && s.cfg.points[p].logging then s.record (.point p q {} t) else s
  let s := if q != old && !s.forced p then handEffective p t s else s
  evalActiveTo p .reconfig t w g s

/-- The runtime values of a point that is not qualified: NORMAL, no chatter, no debounce (R1, R3, R19). -/
def PointRun.unqualified (r : PointRun) : PointRun :=
  { r with qual := .normal, chattering := false, score := 0, suppressed := 0, debounce := none }

/-! ### The Force Table -/

/-- The clamped minutes of a FORCE (R15). -/
def clampMinutes (m : Nat) : Nat := if m = 0 then 1 else min m 1440

/-- An entry replaces the entry of its point in its place, or is placed last (R15 step 1). -/
def placeForce (e : ForceEntry) (fs : List ForceEntry) : List ForceEntry :=
  if fs.any fun x => x.point = e.point then fs.map fun x => if x.point = e.point then e else x
  else fs ++ [e]

/-- A force set or replaced (R15). -/
def setForce (p : Fin 268) (v : PointState) (minutes : Nat) (s : State) : State :=
  let t := s.stamp
  let old := s.effective p
  let s := s.setForces (placeForce ⟨p, v, t, s.now, minutes⟩ s.forces)
  let s := s.record (.forceOn p v)
  let s :=
    if s.effective p = old then s
    else
      let s := if s.cfg.points[p].logging then s.record (.point p v { forced := true } t) else s
      handEffective p t s
  sysFollow false 7 (evalActive p .force t s)

/-- Removal of an entry up to its effective state (R17 steps 1 to 3). -/
def dropForce (reason : ForceOffReason) (p : Fin 268) (s : State) : State :=
  let t := s.stamp
  match s.forcedValue p with
  | none => s
  | some v =>
    let s := s.setForces (s.forces.filter fun e => e.point ≠ p)
    let s := s.record (.forceOff p v reason)
    let q := s.effective p
    if q = v then s
    else
      let c := s.cfg.points[p]
      let s := if c.logging && c.kind != .spare then s.record (.point p q { unforce := true } t) else s
      handEffective p t s

/-- Removal of an entry (R17). -/
def removeForce (reason : ForceOffReason) (p : Fin 268) (s : State) : State :=
  if s.forced p then
    let s := dropForce reason p s
    sysFollow false 7 (evalActive p .unforce s.stamp s)
  else s

/-- Every entry removed, one after another in table order: so R18 gives it for UNFORCE, and so the model
takes it at the return to UNCONFIGURED (log entry 38). -/
def removeAllForces (reason : ForceOffReason) (s : State) : State :=
  (s.forces.map (·.point)).foldl (fun s p => removeForce reason p s) s

/-- An entry of the point has run its minutes (R17). -/
def State.forceDue (s : State) (p : Fin 268) : Bool :=
  s.forces.any fun e => e.point = p && e.start + e.minutes * Config.unitsPerMinute ≤ s.now

/-! ### An accepted PUT_POINT -/

/-- A point that has become SPARE: a force removed with reason RECONFIG, NORMAL, its change of effective
state handed on (R3 steps 1 and 2, R17). -/
def becomeSpare (p : Fin 268) (s : State) : State :=
  let old := s.effective p
  let forced := s.forced p
  let s := s.modPt p PointRun.unqualified
  if forced then sysFollow false 7 (dropForce .reconfig p s)
  else if old = .normal then s
  else handEffective p s.stamp s

/-- Steps 1 to 5 of R3 on a point whose record `old` has been replaced. `w` and `g` take a change of
active flag: the window only where the point stays on its list, the group it had. -/
def requalify (p : Fin 268) (old : PointConfig) (w : Option (Fin 192)) (g : Option (Fin 16))
    (s : State) : State :=
  let c := s.cfg.points[p]
  let s :=
    if c.kind = .spare then (if old.kind = .spare then s else becomeSpare p s)
    else if (c.kind = .mode || c.kind = .key) && s.forced p then
      sysFollow false 7 (dropForce .reconfig p s)
    else s
  if !s.operating || !c.kind.qualified then s
  else
    let s := if old.kind = .spare || c.sense != old.sense then reseed w g p s else s
    let s :=
      if c.debounce = old.debounce then s
      else match s.debounceDue p with
        | some e => qualifyTo w g p e s
        | none => s
    if c.threshold = old.threshold then s else chatterCheck p s

/-- A point leaves the list of a window and joins another's (R40). -/
def remapPoint (p : Fin 268) (wasActive : Bool) (source dest : Option (Fin 192)) (s : State) : State :=
  let s := match source with
    | none => s
    | some w => if wasActive then departure w s else listChange w s
  match dest with
  | none => s
  | some w => if s.pt[p].active then arrival w (s.pointUnit p) s else listChange w s

/-- The effects of an accepted PUT_POINT but for point 264 (R3 steps 1 to 6, R40, R76; log entry 15). -/
def writePoint (p : Fin 268) (c : PointConfig) (s : State) : State :=
  let old := s.cfg.points[p]
  let wasActive := s.pt[p].active
  let s := s.setCfg { s.cfg with points := s.cfg.points.set p.val c p.isLt }
  let stays := old.contributes == c.contributes
  let w := if stays then c.contributes else none
  let s := requalify p old w old.memberOf s
  let s := evalActiveTo p .reconfig s.stamp w c.memberOf s
  if stays then s else remapPoint p wasActive old.contributes c.contributes s

/-- The working configuration differs from the stored one: point 264 (R13, R3 step 7). -/
def markDiffers (s : State) : State :=
  sysFollow false 8 (s.setStore { s.store with differs := true })

end Sys2Proof.Machine
end

