-- ==== Sys2Proof/Machine/FieldEvents.lean ====
section
/-! DEFINITION. The meanings of the field and timer events of points, units and groups. An expiry acts
only where its timer runs and has run out: otherwise it no longer exists (R17, R30; log entry 1). -/
namespace Sys2Proof.Machine

/-- CONTACT_LEVEL_CHANGE (R5, R6). -/
def execContactLevelChange (p : Fin 256) (level : Bool) (s : State) : Host.Outcome State Fault Refusal :=
  .next (contactLevel (fieldPoint p) level s)

/-- DEBOUNCE_EXPIRY (R6). -/
def execDebounceExpiry (p : Fin 256) (s : State) : Host.Outcome State Fault Refusal :=
  match s.debounceDue (fieldPoint p) with
  | none => .next s
  | some e => .next (qualify (fieldPoint p) e s)

/-- The decay interval of the settings has run (R8). -/
def State.decayDue (s : State) : Bool :=
  dueSince s.decay (s.cfg.settings.decay * Config.unitsPerMs) s.now

/-- The decay timer runs on at intervals of I (R8). -/
def advanceDecay (s : State) : State :=
  { s with decay := s.decay.map fun t => t + s.cfg.settings.decay * Config.unitsPerMs }

/-- CHATTER_DECAY_EXPIRY (R8). The points are taken in ascending number, each whole before the next, a
choice of the model (log entry 35). -/
def execChatterDecayExpiry (s : State) : Host.Outcome State Fault Refusal :=
  if s.decayDue then .next (each 268 decayPoint (advanceDecay s)) else .next s

/-- FORCE_EXPIRY (R17). -/
def execForceExpiry (p : Fin 256) (s : State) : Host.Outcome State Fault Refusal :=
  if s.forceDue (fieldPoint p) then .next (removeForce .expiry (fieldPoint p) s) else .next s

/-- MODE_SETTLE_EXPIRY (R30). -/
def execModeSettleExpiry (u : Fin 9) (s : State) : Host.Outcome State Fault Refusal :=
  if s.settleDue u then .next (endChangeover u s) else .next s

/-- The settle timer of a group has run out (R71). -/
def State.groupDue (s : State) (g : Fin 16) : Bool :=
  s.grp[g].state == .settling && Timer.dueOpt s.grp[g].timer s.now

/-- GROUP_SETTLE_EXPIRY (R71). -/
def execGroupSettleExpiry (g : Fin 16) (s : State) : Host.Outcome State Fault Refusal :=
  if s.groupDue g then .next (logged (captureGroup g) s) else .next s

end Sys2Proof.Machine
end

