-- ==== Sys2Proof/Machine/Link.lean ====
section
/-! DEFINITION. Taking a request: the valid frame, the checks of R156 in their order, the reply
(09 sections 9.1 to 9.3). -/
namespace Sys2Proof.Machine

/-- The result codes (09 section 9.2). -/
inductive ResultCode where
  | ok | kind | length | select | state | busy | range | full | conflict | order | present | absent
  deriving DecidableEq, Repr, Inhabited

def ResultCode.code : ResultCode → Nat
  | .ok => 0 | .kind => 1 | .length => 2 | .select => 3 | .state => 4 | .busy => 5 | .range => 6
  | .full => 7 | .conflict => 8 | .order => 9 | .present => 10 | .absent => 11

/-- An accepted request: its result code, the state after its own changes, its reply data, formed from
the state after every change that those handed on (R155), and what follows the forming of the reply. -/
structure Answer where
  code  : ResultCode
  state : State
  data  : State → List Byte
  after : State → State

/-- What the owner of a request answers at check 6 and after it. -/
inductive Verdict where
  | refuse (c : ResultCode)
  | accept (a : Answer)

/-- Accepted with OK, the state and the reply's data. -/
def accept (s : State) (data : State → List Byte) : Verdict :=
  .accept { code := .ok, state := s, data := data, after := fun s => s }

/-- Go on with a value in its range, refuse RANGE otherwise (R156 check 6). -/
def ranged {α : Type} (x : Option α) (f : α → Verdict) : Verdict :=
  match x with
  | none => .refuse .range
  | some a => f a

/-- A request kind: its code, its body length (check 2), the service states that permit it (check 4),
whether it is a PUT or SAVE (check 5), and its owner. -/
structure Handler where
  kind  : Nat
  lenOk : Nat → Bool
  gate  : State → Bool
  put   : Bool
  act   : Request → State → Verdict

/-- Taken in every service state and during a settle. -/
def gateAny (_ : State) : Bool := true

/-- Refused STATE during a start-up settle only. -/
def gateUnsettled (s : State) : Bool := s.settle.isNone

/-- Refused STATE in UNCONFIGURED and during a settle (R15, R117). -/
def gateOperating (s : State) : Bool := s.operating

/-- Refused STATE unless COMMISSIONING with no settle running (R133, R172). -/
def gateCommissioning (s : State) : Bool := s.service == .commissioning && s.settle.isNone

/-! ### The selection -/

/-- The seven further flags of the selection are clear (R156 check 3). -/
def selectionOk (sel : Word) : Bool := sel.toNat < 512

/-- The units a selection names: none set names unit 0 (R157). -/
def unitsOf (sel : Word) : List (Fin 9) :=
  if sel = 0 then [0] else (List.finRange 9).filter fun u => sel.getLsbD u.val

/-! ### The reply -/

/-- The frame of an address, a kind, a selection and a body (09 section 9.1, 11 section 11.2). -/
def frameOf (address kind : Nat) (sel : Word) (body : List Byte) : List Byte :=
  let inner := [byteOf address, byteOf kind] ++ le16 sel.toNat ++ [byteOf body.length] ++ body
  [210#8] ++ inner ++ le16 (crc16 inner).toNat

/-- The selection as a reply carries it: the seven further flags stand for no unit and are sent as 0
(R173; log entry 34). -/
def echoed (sel : Word) : Word := sel &&& 0x01FF#16

/-- The receiver enters REPLYING with the reply frame (R153, R155). -/
def sendReply (kind : Nat) (sel : Word) (code : ResultCode) (data : List Byte) (s : State) : State :=
  s.setLink { s.link with
    receiver := .replying
      (frameOf s.link.station.toNat (kind + 128) (echoed sel) (byteOf code.code :: data)) }

/-! ### Taking a request -/

/-- A valid frame restarts the silence timer and ends a silence condition (R162). The transition of
point 265 is taken before the frame is judged further. -/
def validFrame (s : State) : State :=
  let s := s.setLink { s.link with
    silence := if s.cfg.settings.silence = 0 then none else some s.now, silent := false }
  sysFollow false 9 s

/-- The checks of R156 in their order, then the owner's (R155). -/
def Handler.judge (h : Handler) (r : Request) (s : State) : Verdict :=
  if !h.lenOk r.body.length then .refuse .length
  else if !selectionOk r.sel then .refuse .select
  else if !h.gate s then .refuse .state
  else if h.put && s.saving then .refuse .busy
  else h.act r s

/-- The reply to a verdict: refused with the code alone, or with the data of the kind. -/
def answer (kind : Nat) (sel : Word) (s : State) : Verdict → State
  | .refuse c => sendReply kind sel c [] s
  | .accept a => a.after (sendReply kind sel a.code (a.data a.state) a.state)

/-- A request frame with this station's address and a known kind is taken (R155). -/
def Handler.take (h : Handler) (r : Request) (s : State) : State :=
  let s := validFrame s
  answer h.kind r.sel s (h.judge r s)

/-- A request frame of an unknown kind is refused KIND (R156 check 1). -/
def takeUnknown (kind : Nat) (sel : Word) (s : State) : State :=
  answer kind sel (validFrame s) (.refuse .kind)

/-- A broadcast request is taken in the same way and not answered; the receiver is in HUNT (R153,
R154, R138). -/
def Handler.takeBroadcast (h : Handler) (r : Request) (s : State) : State :=
  let s := validFrame s
  let s := match h.judge r s with
    | .refuse _ => s
    | .accept a => a.state
  s.setLink { s.link with receiver := .hunt }

/-- The frame receiver takes a frame that begins now: not while REPLYING, and in SKIP only after more
than 3 ms of silence (R153; log entry 3). -/
def State.listening (s : State) : Bool :=
  match s.link.receiver with
  | .hunt | .receiving _ _ => true
  | .skip t => t + Config.interByte < s.now
  | .replying _ => false

/-- The controller has a station number (R154). -/
def State.addressed (s : State) : Bool := s.link.station != 0#5

/-- A whole request frame with this station's address (log entry 3). -/
def serve (h : Handler) (r : Request) (s : State) : State :=
  if s.listening && s.addressed then h.take r s else s

end Sys2Proof.Machine
end

