-- ==== Sys2Proof/Machine/Operands.lean ====
section
/-! DEFINITION. The operand forms of the requests: fields read from a body, and configured records as
bytes (11 sections 11.1 and 11.3, R159, R173, R174). -/
namespace Sys2Proof.Machine

/-! ### Reading fields -/

/-- A number below `n`. -/
def toFin (n x : Nat) : Option (Fin n) := if h : x < n then some ⟨x, h⟩ else none

/-- A number in a range. -/
def inRange (lo hi x : Nat) : Option Nat := if lo ≤ x && x ≤ hi then some x else none

/-- A number in a range that is a whole multiple of a step. -/
def inSteps (lo hi step x : Nat) : Option Nat := if lo ≤ x && x ≤ hi && x % step = 0 then some x else none

/-- A code of one byte for two values, 0 and 1. -/
def flagOf (x : Nat) : Option Bool := if x = 0 then some false else if x = 1 then some true else none

/-- A number below `n`, or the code of NONE. -/
def toRef (n none_ x : Nat) : Option (Option (Fin n)) :=
  if x = none_ then some none else (toFin n x).map some

/-- The value of field `k` of a record: read where the mask selects it, else as it stands (R159). -/
def pick {α : Type} (mask k : Nat) (read : Option α) (old : α) : Option α :=
  if mask.testBit k then read else some old

/-- The mask selects only fields that the record has (R159). -/
def maskWithin (mask fields : Nat) : Bool := mask < 2 ^ fields

def kindOf (x : Nat) : Option PointKind :=
  [PointKind.alarm, .status, .mode, .key, .spare, .system][x]?

def senseOf (x : Nat) : Option Sense := [Sense.alarmOnClosed, .alarmOnOpen][x]?

def modeOf (x : Nat) : Option Mode :=
  [Mode.stopped, .generate, .pump, .condense, .changeover, .common][x]?

def seqOf (x : Nat) : Option SeqType := [SeqType.seqF, .seqA, .seqN, .seqS][x]?

/-- C1..C4 as 1..4. -/
def classOf (x : Nat) : Option WindowClass :=
  match x with
  | 1 => some .c1 | 2 => some .c2 | 3 => some .c3 | 4 => some .c4
  | _ => none

def colourOf (x : Nat) : Option Colour := [Colour.white, .amber, .red][x]?

def speedOf (x : Nat) : Option LinkSpeed :=
  [LinkSpeed.b9600, .b19200, .b38400, .b57600, .b115200][x]?

def serviceOf (x : Nat) : Option Service := [Service.unconfigured, .commissioning, .inService][x]?

/-- A panel by its number 1..4. -/
def panelOf (x : Nat) : Option (Fin 4) := if x = 0 then none else toFin 4 (x - 1)

/-- A home panel: 0 for NONE. -/
def homeOf (x : Nat) : Option (Option (Fin 4)) := if x = 0 then some none else (panelOf x).map some

/-- The panels of a set, in ascending number. -/
def panelsOf (set : Nat) : List (Fin 4) := (List.finRange 4).filter fun p => set.testBit p.val

/-- A term (11 section 11.3): a parameter that the kind does not use is not read (R174). -/
def termOf (kind x y : Nat) : Option Term :=
  match kind with
  | 0 => (flagOf x).map .const
  | 1 => (toFin 268 x).map .point
  | 2 => (toFin 32 x).map .equation
  | 3 => do
    let u ← toFin 9 x
    let m ← modeOf y
    return .mode u m
  | _ => none

/-- The term at an offset of a body. -/
def rdTerm (b : List Byte) (i : Nat) : Option Term := termOf (rd8 b i) (rd16 b (i + 1)) (rd8 b (i + 3))

/-- The five attention enables; a bit beyond them names no item (R173). -/
def enablesOf (x : Nat) : Option Enables :=
  if x < 32 then some ⟨x.testBit 0, x.testBit 1, x.testBit 2, x.testBit 3, x.testBit 4⟩ else none

/-! ### Candidate records -/

/-- The candidate record of PUT_POINT, where every selected field lies in its range (R2). -/
def pointCandidate (system : Bool) (old : PointConfig) (b : List Byte) : Option PointConfig := do
  let m := rd16 b 2
  let kind ← pick m 0 (kindOf (rd8 b 4)) old.kind
  let unit ← pick m 1 (toFin 9 (rd8 b 5)) old.unit
  let sense ← pick m 2 (senseOf (rd8 b 6)) old.sense
  let debounce ← pick m 3 (some (rd8 b 7)) old.debounce
  let weight ← pick m 4 (inRange 0 63 (rd8 b 8)) old.weight
  let threshold ← pick m 5 (inRange 1 255 (rd8 b 9)) old.threshold
  let mask ← pick m 6 ((inRange 0 31 (rd8 b 10)).map (BitVec.ofNat 5)) old.mask
  let window ← pick m 7 (toRef 192 255 (rd8 b 11)) old.window
  let group ← pick m 8 (toRef 16 255 (rd8 b 12)) old.group
  let logging ← pick m 9 (flagOf (rd8 b 13)) old.logging
  if !maskWithin m 10 || (!system && kind == .system) || (system && !logging) then none
  else some { kind, unit, sense, debounce, weight, threshold, mask, window, group, logging }

/-- The candidate record of PUT_UNIT (R24). -/
def unitCandidate (old : UnitConfig) (b : List Byte) : Option UnitConfig := do
  let m := rd8 b 1
  let run ← pick m 0 (toRef 268 65535 (rd16 b 2)) old.run
  let pump ← pick m 1 (toRef 268 65535 (rd16 b 4)) old.pump
  let cond ← pick m 2 (toRef 268 65535 (rd16 b 6)) old.cond
  let settle ← pick m 3 (inRange 0 600 (rd16 b 8)) old.settle
  let key ← pick m 4 (toRef 268 65535 (rd16 b 10)) old.key
  if !maskWithin m 5 then none else some { run, pump, cond, settle, key }

/-- The candidate record of PUT_WINDOW (R37). -/
def windowCandidate (old : WindowConfig) (b : List Byte) : Option WindowConfig := do
  let m := rd8 b 1
  let seq ← pick m 0 (seqOf (rd8 b 2)) old.seq
  let cls ← pick m 1 (classOf (rd8 b 3)) old.cls
  let colour ← pick m 2 (colourOf (rd8 b 4)) old.colour
  let ringback ← pick m 3 (flagOf (rd8 b 5)) old.ringback
  if !maskWithin m 4 then none else some { seq, cls, colour, ringback }

/-- The candidate record of PUT_GROUP (R63). -/
def groupCandidate (old : GroupConfig) (b : List Byte) : Option GroupConfig := do
  let m := rd8 b 1
  let resolve ← pick m 0 (some (rd8 b 2)) old.resolve
  let home ← pick m 1 (homeOf (rd8 b 3)) old.home
  if !maskWithin m 2 then none else some { resolve, home }

/-- The candidate record of PUT_OUTPUT (R124). -/
def outputCandidate (old : OutputConfig) (b : List Byte) : Option OutputConfig := do
  let m := rd8 b 1
  let kind ← pick m 0 ([OutputKind.sustained, .pulse][rd8 b 2]?) old.kind
  let width ← pick m 1 (inSteps 10 5000 10 (rd16 b 3)) old.width
  let verify ← pick m 2 (inRange 5 250 (rd8 b 5)) old.verify
  let readback ← pick m 3 (flagOf (rd8 b 6)) old.readback
  let unit ← pick m 4 (toFin 9 (rd8 b 7)) old.unit
  if !maskWithin m 5 then none else some { kind, width, verify, readback, unit }

/-- The candidate record of PUT_SETTINGS (R163). -/
def settingsCandidate (old : Settings) (b : List Byte) : Option Settings := do
  let m := rd8 b 0
  let decay ← pick m 0 (inSteps 100 10000 100 (rd16 b 1)) old.decay
  let speed ← pick m 1 (speedOf (rd8 b 3)) old.speed
  let silence ← pick m 2 (some (rd8 b 4)) old.silence
  let minutePulse ← pick m 3 (flagOf (rd8 b 5)) old.minutePulse
  let syncWindow ← pick m 4 (inRange 0 5000 (rd16 b 6)) old.syncWindow
  let clearMode ← pick m 5 ([NewsClearMode.clearOnRead, .clearByRequest][rd8 b 8]?) old.clearMode
  let enables ← pick m 6 (enablesOf (rd8 b 9)) old.enables
  if !maskWithin m 7 then none
  else some { decay, speed, silence, minutePulse, syncWindow, clearMode, enables }

/-- A brightness as clamped: 0 as 1, above 8 as 8 (R78, R94). -/
def clampBrightness (n : Nat) : Nat := if n = 0 then 1 else min n 8

/-- The window numbers of a PUT_PANEL body, where each is in range (R78). -/
def positionsOf (bs : List Byte) : Option (List (Fin 192)) := bs.mapM fun b => toFin 192 b.toNat

/-- The record of PUT_PANEL, where its fields lie in range (R78, R174). -/
def panelRecord (b : List Byte) : Option PanelConfig := do
  let enabled ← flagOf (rd8 b 1)
  let brightness := clampBrightness (rd8 b 2)
  let n := rd8 b 3
  let positions ← positionsOf (b.drop 4)
  if n ≤ 64 && n = b.length - 4 then some { enabled, positions, brightness } else none

/-- The record of PUT_EQUATION, where its fields lie in range (R105). -/
def equationRecord (b : List Byte) : Option EquationRecord := do
  let inUse ← flagOf (rd8 b 1)
  let unit ← toFin 9 (rd8 b 2)
  let a ← rdTerm b 3
  let bTerm ← rdTerm b 7
  let func ← toFin 16 (rd8 b 11)
  let delay ← inRange 0 60000 (rd16 b 12)
  let outs := BitVec.ofNat 16 (rd16 b 14)
  let hold ← [Hold.latch, .follow][rd8 b 16]?
  let after ← [AfterTrip.rearm, .disarm][rd8 b 17]?
  return { inUse, unit, a, b := bTerm, func, delay, outs, hold, after }

/-! ### Configured records as bytes (11 section 11.3) -/

def PointConfig.bytes (c : PointConfig) : List Byte :=
  [byteOf c.kind.code, byteOf c.unit.val, byteOf c.sense.code, byteOf c.debounce, byteOf c.weight,
   byteOf c.threshold, byteOf c.mask.toNat, byteOf (optCode c.window), byteOf (optCode c.group),
   byteOf c.logging.toNat]

def UnitConfig.bytes (c : UnitConfig) : List Byte :=
  le16 (pointCode c.run) ++ le16 (pointCode c.pump) ++ le16 (pointCode c.cond) ++ le16 c.settle ++
    le16 (pointCode c.key)

def WindowConfig.bytes (c : WindowConfig) : List Byte :=
  [byteOf c.seq.code, byteOf c.cls.code, byteOf c.colour.code, byteOf c.ringback.toNat]

def PanelConfig.bytes (c : PanelConfig) : List Byte :=
  [byteOf c.enabled.toNat, byteOf c.brightness, byteOf c.positions.length] ++
    c.positions.map fun w => byteOf w.val

def GroupConfig.bytes (c : GroupConfig) : List Byte := [byteOf c.resolve, byteOf (panelCode c.home)]

def Term.bytes : Term → List Byte
  | .const v => [0#8] ++ le16 v.toNat ++ [0#8]
  | .point p => [1#8] ++ le16 p.val ++ [0#8]
  | .equation k => [2#8] ++ le16 k.val ++ [0#8]
  | .mode u m => [3#8] ++ le16 u.val ++ [byteOf m.code]

def Hold.code : Hold → Nat
  | .latch => 0 | .follow => 1

def AfterTrip.code : AfterTrip → Nat
  | .rearm => 0 | .disarm => 1

def EquationRecord.bytes (c : EquationRecord) : List Byte :=
  [byteOf c.inUse.toNat, byteOf c.unit.val] ++ c.a.bytes ++ c.b.bytes ++ [byteOf c.func.val] ++
    le16 c.delay ++ le16 c.outs.toNat ++ [byteOf c.hold.code, byteOf c.after.code]

def OutputKind.code : OutputKind → Nat
  | .sustained => 0 | .pulse => 1

def OutputConfig.bytes (c : OutputConfig) : List Byte :=
  [byteOf c.kind.code] ++ le16 c.width ++
    [byteOf c.verify, byteOf c.readback.toNat, byteOf c.unit.val]

def NewsClearMode.code : NewsClearMode → Nat
  | .clearOnRead => 0 | .clearByRequest => 1

def Enables.nat (e : Enables) : Nat := flagsNat [e.alert, e.trip, e.mode, e.fault, e.log]

def Settings.bytes (c : Settings) : List Byte :=
  le16 c.decay ++ [byteOf c.speed.code, byteOf c.silence, byteOf c.minutePulse.toNat] ++
    le16 c.syncWindow ++ [byteOf c.clearMode.code, byteOf c.enables.nat]

end Sys2Proof.Machine
end

