-- ==== Sys2Proof/Machine/Panels.lean ====
section
/-! DEFINITION. The Panel Controller: lamp frames, the exchange, key presses, lamp tests, the operator
actions, and what a fascia does with a frame (05 sections 5.2 to 5.5, 11 section 11.5). -/
namespace Sys2Proof.Machine

/-- The system point of a panel: 256 + its place (R85). -/
def panelPoint (p : Fin 4) : Fin 12 := ⟨p.val, by omega⟩

/-! ### Lamp frames -/

/-- Some lamp test covers the position (R82, R95, R96). -/
def PanelRun.tested (r : PanelRun) (k : Nat) : Bool :=
  r.keyTest || r.test.any fun t => t.first ≤ k && k ≤ t.last

/-- The lamp code sent for a position (R82). -/
def State.sentCode (s : State) (p : Fin 4) (k : Nat) : Byte :=
  let w := s.cfg.panels[p].positions[k]?
  if s.pan[p].tested k then
    lampByte .steady ((w.map fun w => s.cfg.windows[w].colour).getD .white)
  else (w.map s.lampCode).getD (lampByte .off .white)

/-- The brightness sent: 8 while any lamp test runs (R82). -/
def State.sentBrightness (s : State) (p : Fin 4) : Nat :=
  if s.pan[p].keyTest || s.pan[p].test.isSome then 8 else s.pan[p].brightness

/-- Bytes followed by their check word, least significant byte first (R152, R84). -/
def withCheck (bs : List Byte) : List Byte := bs ++ le16 (crc16 bs).toNat

/-- The LAMP frame of a panel (11 section 11.5). -/
def State.lampFrame (s : State) (p : Fin 4) : List Byte :=
  withCheck ([0xA5#8, s.frameClock.phase, byteOf (s.sentBrightness p)] ++
    (List.range 64).map (s.sentCode p))

/-- What a fascia holds after a LAMP frame has reached it whole: a frame whose check word fails leaves
it as it was (R83, R176). -/
def Fascia.receive (old : Option Fascia) (frame : List Byte) (now : Nat) : Option Fascia :=
  if withCheck (frame.take 67) = frame then
    some ⟨frame.getD 1 0#8, rd8 frame 2, (frame.drop 3).take 64, now⟩
  else old

/-- A pattern lights its position at a time in ms of its cycle (R83). -/
def litAt (pattern time : Nat) : Bool :=
  match pattern with
  | 1 => true
  | 2 => time % 400 < 200
  | 3 => time % 1600 < 800
  | 4 => time % 800 < 100 || (200 ≤ time % 800 && time % 800 < 300)
  | 5 => time % 2000 < 1800
  | _ => false

/-- The fascia lights a position at `now` (R83); a code with no pattern or no colour shows OFF (R176). -/
def Fascia.lit (f : Fascia) (k now : Nat) : Bool :=
  let code := rd8 f.codes k
  code / 8 % 4 ≤ 2 && litAt (code % 8) (40 * f.phase.toNat + (now - f.since) / Config.unitsPerMs)

/-- A LAMP frame is sent to the panel and the 10 ms wait begins (R81). `arrives` is the free value of
log entry 8: whether the frame reaches the fascia whole. -/
def sendLamp (arrives : Bool) (p : Fin 4) (s : State) : State :=
  let frame := s.lampFrame p
  s.modPan p fun r =>
    { r with lastFrame := some frame, exchange := some s.now,
             fascia := if arrives then Fascia.receive r.fascia frame s.now else r.fascia }

/-- One panel in one period of the frame clock (R81): a LOST panel has a frame in every 25th period. -/
def panelPeriod (arrives : Bool) (p : Fin 4) (s : State) : State :=
  match s.pan[p].link with
  | .disabled => s
  | .starting | .up => sendLamp arrives p s
  | .lost =>
    if s.pan[p].lostFor + 1 < 25 then s.modPan p fun r => { r with lostFor := r.lostFor + 1 }
    else sendLamp arrives p (s.modPan p fun r => { r with lostFor := 0 })

/-- The next period of the frame clock is due (R81; log entry 7). -/
def State.periodDue (s : State) : Bool :=
  !s.frameClock.begun || s.frameClock.start + Config.framePeriod ≤ s.now

/-- The frame clock at the beginning of its next period; the first keeps phase 0 (R81; log entry 7). -/
def FrameClock.next (c : FrameClock) : FrameClock :=
  if c.begun then { c with phase := c.phase + 1, start := c.start + Config.framePeriod }
  else { c with begun := true }

/-- A period of the frame clock begins (R81). The draw counter advances by one. -/
def beginPeriod (s : State) : State :=
  let n := s.draws
  each 4 (fun p s => panelPeriod (Config.lampFrameArrives n p) p s)
    { s with draws := n + 1, frameClock := s.frameClock.next }

/-! ### Key presses -/

/-- An ACK press (R87). -/
def ackPress (p : Fin 4) (s : State) : State :=
  let r := ackWindows s.cfg.panels[p].positions s
  r.1.recordOperator .ack (some p) r.2

/-- A SILENCE press (R88). -/
def silencePress (p : Fin 4) (s : State) : State :=
  (silencePanel p s).recordOperator .silence (some p) s.pan[p].calls.size

/-- What a RESET press does: the windows, then the groups at home on the panel, each with its record (R89,
R75). -/
def resetKey (p : Fin 4) (s : State) : State :=
  let r := resetWindows s.cfg.panels[p].positions s
  let g := rearmHome p (r.1.writeOperator .reset (some p) r.2)
  g.1.writeOperator .groupReset (some p) g.2

/-- A RESET press. The active flags tested are those that stand when the press is taken, and the capture event
of a member that becomes active after that finds its group re-armed (R75): where a record of the press fills
the log, point 261 is handed on after the press (log entry 4). -/
def resetPress (p : Fin 4) (s : State) : State := logged (resetKey p) s

/-- The presses of a reply, in the order ACK, SILENCE, RESET, each whole before the next (R86). -/
def takePresses (p : Fin 4) (seen new : Counters) (s : State) : State :=
  let s := if new.ack = seen.ack then s else ackPress p s
  let s := if new.silence = seen.silence then s else silencePress p s
  if new.reset = seen.reset then s else resetPress p s

/-! ### KEY replies -/

/-- A KEY reply is good (R84, R176), leaving aside the wait. -/
def goodReply (bs : List Byte) : Bool :=
  bs.length == 6 && bs.head? == some 0x5A#8 && withCheck (bs.take 4) == bs

/-- The three press counters of a reply (11 section 11.5). -/
def replyCounters (bs : List Byte) : Counters :=
  ⟨(bs.getD 2 0#8).extractLsb' 0 4, (bs.getD 2 0#8).extractLsb' 4 4, (bs.getD 3 0#8).extractLsb' 0 4⟩

/-- The key levels of a reply (11 section 11.5, R176). -/
def replyKeys (bs : List Byte) : BitVec 4 := (bs.getD 1 0#8).extractLsb' 0 4

/-- The TEST key is held. -/
def testHeld (keys : BitVec 4) : Bool := keys.getLsbD 3

/-- The last seen counters and the key levels of a reply are recorded (R84, R86). -/
def recordReply (p : Fin 4) (bs : List Byte) (s : State) : State :=
  s.modPan p fun r => { r with seen := some (replyCounters bs), keys := replyKeys bs }

/-- The key test of a panel that is UP follows the TEST key; its start writes a record (R95). -/
def followTestKey (p : Fin 4) (s : State) : State :=
  let held := testHeld s.pan[p].keys
  let was := s.pan[p].keyTest
  let s := s.modPan p fun r => { r with keyTest := held }
  if held && !was then s.recordOperator .lampTest (some p) 1 else s

/-- A good reply, by the link state (R84, R85, R86, R95, R100; log entry 18). -/
def takeReply (p : Fin 4) (bs : List Byte) (s : State) : State :=
  let seen := s.pan[p].seen
  let s := s.modPan p fun r => { r with exchange := none }
  match s.pan[p].link with
  | .disabled => s
  | .starting =>
    let s := recordReply p bs s
    if s.settle.isSome then s
    else followTestKey p (s.modPan p fun r => { r with link := .up, misses := 0 })
  | .up =>
    let s := s.modPan p fun r => { r with misses := 0 }
    let s := takePresses p (seen.getD (replyCounters bs)) (replyCounters bs) s
    followTestKey p (recordReply p bs s)
  | .lost =>
    let s := recordReply p bs s
    sysFollow false (panelPoint p) (s.modPan p fun r => { r with link := .starting, lostFor := 0 })

/-- The panel's 10 ms wait is running (R84). -/
def State.waiting (s : State) (p : Fin 4) : Bool :=
  s.pan[p].exchange.any fun t => s.now ≤ t + Config.replyWait

/-- The wait has ended with no good reply (R84). -/
def State.waitOver (s : State) (p : Fin 4) : Bool :=
  dueSince s.pan[p].exchange Config.replyWait s.now

/-- A panel that is UP becomes LOST (R85). -/
def losePanel (p : Fin 4) (s : State) : State :=
  sysFollow false (panelPoint p)
    (s.modPan p fun r => { r with link := .lost, misses := 0, keyTest := false, lostFor := 0 })

/-- A miss (R84): a panel that is UP counts it, and is LOST at the third. -/
def takeMiss (p : Fin 4) (s : State) : State :=
  let s := s.modPan p fun r => { r with exchange := none }
  match s.pan[p].link with
  | .up =>
    if s.pan[p].misses + 1 < 3 then s.modPan p fun r => { r with misses := r.misses + 1 }
    else losePanel p s
  | .disabled | .starting | .lost => s

/-! ### Requested lamp tests, brightness, chime -/

/-- LAMP_TEST on one panel, and whether a test was started, replaced or ended (R96). -/
def lampTestOn (first last seconds : Nat) (p : Fin 4) (s : State) : State × Bool :=
  if seconds = 0 then
    (s.modPan p fun r => { r with test := none }, s.pan[p].test.isSome)
  else (s.modPan p fun r => { r with test := some ⟨first, last, s.now, seconds⟩ }, true)

/-- The requested test of a panel has run its seconds (R96). -/
def State.testDue (s : State) (p : Fin 4) : Bool :=
  s.pan[p].test.any fun t => t.start + t.seconds * Config.unitsPerSecond ≤ s.now

/-- BRIGHTNESS on one panel, and whether its present brightness changed (R94). -/
def brightnessOn (level : Nat) (p : Fin 4) (s : State) : State × Bool :=
  (s.modPan p fun r => { r with brightness := level }, s.pan[p].brightness != level)

/-- SILENCE on one panel by request, and whether its call set was not empty (R93). -/
def silenceOn (p : Fin 4) (s : State) : State × Bool :=
  (silencePanel p s, s.pan[p].calls != ClassSet.empty)

/-- The chime of a panel has sounded its 1000 ms (R99). -/
def State.chimeDue (s : State) (p : Fin 4) : Bool :=
  match s.pan[p].horn with
  | .chime t => t + Config.chimeLength ≤ s.now
  | .silent | .cadence _ _ => false

/-! ### An accepted PUT_PANEL -/

/-- The enabled field changes (R79 step 1). -/
def switchPanel (p : Fin 4) (enabled : Bool) (s : State) : State :=
  sysFollow false (panelPoint p)
    (s.modPan p fun r =>
      if enabled then { r with link := .starting, seen := none, misses := 0, exchange := none }
      else { r with link := .disabled, misses := 0, seen := none, keys := 0, keyTest := false,
                    exchange := none, lostFor := 0 })

/-- The record of a panel is written. -/
def setPanelRecord (p : Fin 4) (c : PanelConfig) (s : State) : State :=
  s.setCfg { s.cfg with panels := s.cfg.panels.set p.val c p.isLt }

/-- The effects of an accepted PUT_PANEL but for point 264 (R79 steps 1 to 3). The old position list is
in force until step 2 replaces it. -/
def writePanel (p : Fin 4) (c : PanelConfig) (s : State) : State :=
  let old := s.cfg.panels[p]
  let s := setPanelRecord p { old with enabled := c.enabled } s
  let s := if old.enabled = c.enabled then s else switchPanel p c.enabled s
  (pruneCalls p (setPanelRecord p c s)).modPan p fun r => { r with brightness := c.brightness }

/-- A start-up settle begins without a start: a panel that is UP becomes STARTING and its key test ends
(R100). -/
def settlePanel (p : Fin 4) (s : State) : State :=
  match s.pan[p].link with
  | .up => s.modPan p fun r => { r with link := .starting, keyTest := false }
  | .disabled | .starting | .lost => s

end Sys2Proof.Machine
end

