-- ==== Sys2Proof/Machine/OperatorRequests.lean ====
section
/-! DEFINITION. The operator requests ACK to BRIGHTNESS (05 sections 5.4 and 5.5, 04 section 4.4). -/
namespace Sys2Proof.Machine

/-- The windows of a range first..last, where it is in range (R91). -/
def windowRange (first last : Nat) : Option (List (Fin 192)) :=
  if first ≤ last && last ≤ 191 then
    some ((List.finRange 192).filter fun w => first ≤ w.val && w.val ≤ last)
  else none

/-- The panels of a panel set; a bit that names no panel is out of range (R173). -/
def panelSet (x : Nat) : Option (List (Fin 4)) := if x < 16 then some (panelsOf x) else none

/-- An operator request that changed `n` items: its record with source LINK, its reply the count (R90). -/
def countedAnswer (a : OperatorAction) (r : State × Nat) : Verdict :=
  accept (r.1.recordOperator a none r.2) fun _ => le16 r.2

def handleAck : Handler where
  kind := 0x10
  lenOk n := n == 2
  gate := gateUnsettled
  put := false
  act r s :=
    ranged (windowRange (rd8 r.body 0) (rd8 r.body 1)) fun ws => countedAnswer .ack (ackWindows ws s)

def handleSilence : Handler where
  kind := 0x11
  lenOk n := n == 1
  gate := gateUnsettled
  put := false
  act r s := ranged (panelSet (rd8 r.body 0)) fun ps => countedAnswer .silence (countEach ps silenceOn s)

def handleResetWindows : Handler where
  kind := 0x12
  lenOk n := n == 2
  gate := gateUnsettled
  put := false
  act r s :=
    ranged (windowRange (rd8 r.body 0) (rd8 r.body 1)) fun ws =>
      countedAnswer .reset (resetWindows ws s)

/-- The outcome of RESET_GROUPS for a group (R74). -/
def groupOutcome : GroupState → Outcome
  | .captured => .done
  | .settling => .notReady
  | .armed => .idle

/-- RESET_GROUPS on one group, and whether it was re-armed (R74). -/
def resetGroupOn (g : Fin 16) (s : State) : State × Bool :=
  match s.grp[g].state with
  | .captured => (rearmGroup g s, true)
  | .settling | .armed => (s, false)

def handleResetGroups : Handler where
  kind := 0x13
  lenOk n := n == 2
  gate := gateUnsettled
  put := false
  act r s :=
    let gs := (List.finRange 16).filter fun g => (rd16 r.body 0).testBit g.val
    let outcomes := gs.flatMap fun g => [byteOf g.val, byteOf (groupOutcome s.grp[g].state).code]
    let x := countEach gs resetGroupOn s
    accept (x.1.recordOperator .groupReset none x.2) fun _ => byteOf gs.length :: outcomes

def handleLampTest : Handler where
  kind := 0x14
  lenOk n := n == 4
  gate := gateUnsettled
  put := false
  act r s :=
    let first := rd8 r.body 1
    let last := rd8 r.body 2
    ranged (if first ≤ last && last ≤ 63 then panelSet (rd8 r.body 0) else none) fun ps =>
      countedAnswer .lampTest (countEach ps (lampTestOn first last (min 60 (rd8 r.body 3))) s)

def handleBrightness : Handler where
  kind := 0x15
  lenOk n := n == 2
  gate := gateUnsettled
  put := false
  act r s :=
    ranged (panelSet (rd8 r.body 0)) fun ps =>
      countedAnswer .brightness (countEach ps (brightnessOn (clampBrightness (rd8 r.body 1))) s)

end Sys2Proof.Machine
end

