-- ==== Sys2Proof/Machine/Clock.lean ====
section
/-! DEFINITION. The Hall Clock: setting the time, the minute pulse, the minute watch (08 sections 8.1 to
8.4). -/
namespace Sys2Proof.Machine

/-- A time stamp read as one span of clock units (R138). -/
def TimeStamp.span (t : TimeStamp) : Int := t.day.toNat * 864000000 + t.dayTime

/-- The step of a CLOCK record, saturated in four bytes (R138). -/
def clampStep (x : Int) : Int := max (-2147483648) (min x 2147483647)

/-- A CLOCK record of a clock that has just changed, then point 260 (R137). -/
def recordClock (step : Int) (reason : ClockReason) (s : State) : State :=
  sysFollow false 4 (s.record (.clock step reason s.clock.state))

/-- SET_TIME (R138). -/
def setClockTime (t : TimeStamp) (s : State) : State :=
  let step := clampStep (t.span - s.clock.stamp.span)
  recordClock step .set (s.setClock ⟨t, .free, none⟩)

/-- The outcome of the snap arithmetic at a time stamp (R140): the error, the new time, the step. -/
structure Snap where
  error : Nat
  stamp : TimeStamp
  step  : Int
  deriving DecidableEq, Repr, Inhabited

/-- The snap arithmetic (R140). -/
def snap (t : TimeStamp) : Snap :=
  let r := t.dayTime % Config.unitsPerMinute
  if r = 0 then ⟨0, t, 0⟩
  else if r < 300000 then ⟨r, { t with dayTime := t.dayTime - r }, -(r : Int)⟩
  else
    let e := Config.unitsPerMinute - r
    let t' := t.dayTime + e
    if t' < Config.unitsPerDay then ⟨e, { t with dayTime := t' }, e⟩
    else ⟨e, ⟨t.day + 1, 0⟩, e⟩

/-- An accepted pulse (R141). -/
def acceptPulse (x : Snap) (s : State) : State :=
  let s := s.setClock ⟨x.stamp, .locked, some s.now⟩
  if x.step = 0 then sysFollow false 4 s else recordClock x.step .snap s

/-- The clock becomes FREE and its minute watch stops, with a CLOCK record of step 0 (R142, R143). -/
def freeClock (reason : ClockReason) (s : State) : State :=
  recordClock 0 reason (s.setClock { s.clock with state := .free, watch := none })

/-- A minute pulse (R139): ignored while UNSET or disabled, else accepted or rejected (R140). -/
def takePulse (s : State) : State :=
  if s.clock.state = .unset || !s.cfg.settings.minutePulse then s
  else
    let x := snap s.clock.stamp
    if x.error ≤ s.cfg.settings.syncWindow then acceptPulse x s else freeClock .reject s

/-- The minute watch has run 150 s (R143). -/
def State.watchDue (s : State) : Bool := dueSince s.clock.watch Config.minuteWatch s.now

/-- PUT_SETTINGS has changed the minute-pulse setting, already written (R143). -/
def minutePulseSetting (s : State) : State :=
  if !s.cfg.settings.minutePulse && s.clock.state == .locked then freeClock .disable s
  else sysFollow false 4 s

end Sys2Proof.Machine
end

