-- ==== Sys2Proof/Machine/ReadRequests.lean ====
section
/-! DEFINITION. The read requests READ_STATUS to READ_CLOCK and their reply data (11 section 11.2). -/
namespace Sys2Proof.Machine

/-! ### READ_STATUS (R158) -/

/-- The states of points 256..267 as bits 0..11. -/
def State.systemBits (s : State) : Nat :=
  flagsNat ((List.finRange 12).map fun k => s.pt[sysPoint k].qual.bit)

def State.partRecord (s : State) : List Byte :=
  [byteOf s.service.code, byteOf s.settle.isSome.toNat, byteOf s.clock.state.code,
   byteOf s.store.state.code] ++ le16 s.log.recs.length ++ [byteOf s.forces.length] ++
   (List.finRange 4).map (fun p => byteOf s.pan[p].link.code) ++ le16 s.systemBits

def News.nat (n : News) : Nat := flagsNat [n.alert, n.trip, n.mode, n.fault]

/-- The remaining settle time of a unit in whole seconds, rounded up. -/
def State.settleSeconds (s : State) (u : Fin 9) : Nat :=
  ceilDiv (leftSince s.un[u].settle (s.cfg.units[u].settle * Config.unitsPerSecond) s.now)
    Config.unitsPerSecond

/-- The active points whose unit is the unit, system points under unit 0. -/
def State.activeOf (s : State) (u : Fin 9) : Nat :=
  (List.finRange 268).countP fun p => s.pt[p].active && s.pointUnit p == u

/-- The equations in TRIPPED whose unit field names the unit. -/
def State.trippedOf (s : State) (u : Fin 9) : Nat :=
  (List.finRange 32).countP fun k => s.eqn[k].state == .tripped && s.cfg.equations[k].unit == u

def State.unitRecord (s : State) (u : Fin 9) : List Byte :=
  let r := s.un[u]
  [byteOf u.val, byteOf r.current.code, byteOf ((r.target.map Mode.code).getD 0)] ++
    sat16 (s.settleSeconds u) ++ [byteOf r.blocked.toNat, byteOf s.news[u].nat] ++
    le16 (s.activeOf u) ++ [byteOf (s.trippedOf u)]

/-- Clear the news flags a mask names, in some units (R160). -/
def clearNewsOf (mask : Nat) (us : List (Fin 9)) (s : State) : State :=
  us.foldl (fun s u => s.modNews u fun n =>
    { alert := n.alert && !mask.testBit 0, trip := n.trip && !mask.testBit 1,
      mode := n.mode && !mask.testBit 2, fault := n.fault && !mask.testBit 3 }) s

/-- READ_STATUS: under CLEAR_ON_READ the reported flags are cleared once the reply is formed. -/
def handleReadStatus : Handler where
  kind := 0x01
  lenOk n := n == 0
  gate := gateAny
  put := false
  act r s :=
    let us := unitsOf r.sel
    .accept {
      code := .ok
      state := s
      data := fun s => s.partRecord ++ us.flatMap s.unitRecord
      after := fun s =>
        match s.cfg.settings.clearMode with
        | .clearOnRead => clearNewsOf 15 us s
        | .clearByRequest => s }

/-! ### Ranges of items -/

/-- The items of a read: `count` from `first`, where the count is in 1..`most` and the items exist. -/
def itemsOf (n most first count : Nat) : Option (List (Fin n)) :=
  if 1 ≤ count && count ≤ most && first + count ≤ n then
    some ((List.finRange n).filter fun i => first ≤ i.val && i.val < first + count)
  else none

/-! ### READ_POINTS (R4) -/

def State.pointFlags (s : State) (p : Fin 268) : Nat :=
  let r := s.pt[p]
  flagsNat [r.raw, r.qual.bit, (s.effective p).bit, s.forced p,
    ((s.forcedValue p).getD .normal).bit, r.chattering, r.debounce.isSome, r.active]

def State.pointEntry (s : State) (p : Fin 268) : List Byte :=
  let r := s.pt[p]
  [byteOf s.cfg.points[p].kind.code, byteOf (s.pointFlags p), sat8 r.score] ++ sat16 r.suppressed ++
    r.lastEdge.bytes

def handleReadPoints : Handler where
  kind := 0x02
  lenOk n := n == 3
  gate := gateAny
  put := false
  act r s :=
    ranged (itemsOf 268 16 (rd16 r.body 0) (rd8 r.body 2)) fun ps =>
      accept s fun s => r.body ++ ps.flatMap s.pointEntry

/-! ### READ_WINDOWS (R38) -/

def State.activeContributors (s : State) (w : Fin 192) : Nat :=
  (s.cfg.contributors w).countP fun p => s.pt[p].active

def State.windowEntry (s : State) (w : Fin 192) : List Byte :=
  let c := s.cfg.windows[w]
  [byteOf (c.seq.code + 4 * (c.cls.code - 1) + 16 * s.win[w].code + 64 * (s.condition w).toNat +
      128 * (s.marker w).toNat),
   byteOf (s.chatterIndication w).toNat,
   byteOf ((s.cfg.contributors w).length + 16 * s.activeContributors w),
   s.lampCode w]

def handleReadWindows : Handler where
  kind := 0x03
  lenOk n := n == 2
  gate := gateAny
  put := false
  act r s :=
    ranged (itemsOf 192 48 (rd8 r.body 0) (rd8 r.body 1)) fun ws =>
      accept s fun s => r.body ++ ws.flatMap s.windowEntry

/-! ### READ_GROUPS (R64) -/

/-- Four fields of two bytes: the points of a set in their order of joining, the rest 0. -/
def setBytes (ps : List (Fin 268)) : List Byte :=
  (List.range 4).flatMap fun i => le16 ((ps[i]?.map (·.val)).getD 0)

/-- A remaining time in whole ms, rounded up, saturated in a byte (R173). -/
def msLeft8 (units : Nat) : Byte := sat8 (ceilDiv units Config.unitsPerMs)

def msLeft16 (units : Nat) : List Byte := sat16 (ceilDiv units Config.unitsPerMs)

def State.groupEntry (s : State) (g : Fin 16) : List Byte :=
  let r := s.grp[g]
  let c := s.cfg.groups[g]
  [byteOf r.state.code, byteOf r.firstOut.length] ++ setBytes r.firstOut ++
    (r.stamp.getD TimeStamp.zero).bytes ++
    [sat8 r.subsequent, byteOf r.overfull.toNat, msLeft8 (Timer.leftOpt r.timer s.now),
     byteOf c.resolve, byteOf (panelCode c.home)]

def handleReadGroups : Handler where
  kind := 0x04
  lenOk n := n == 2
  gate := gateAny
  put := false
  act r s :=
    ranged (itemsOf 16 8 (rd8 r.body 0) (rd8 r.body 1)) fun gs =>
      accept s fun s => r.body ++ gs.flatMap s.groupEntry

/-! ### READ_EQUATIONS (R108) -/

/-- Bit 0: a pending record is held; bit 1: the overwrite flag. -/
def EquationRun.pendingNat (r : EquationRun) : Nat := flagsNat [r.staged.isSome, r.overwrite]

def State.equationEntry (s : State) (k : Fin 32) : List Byte :=
  let r := s.eqn[k]
  [byteOf r.state.code, byteOf (flagsNat [r.a, r.b, r.cond]), byteOf r.pendingNat] ++
    msLeft16 (s.delayLeft k) ++ causeBytes r.cause

def handleReadEquations : Handler where
  kind := 0x05
  lenOk n := n == 2
  gate := gateAny
  put := false
  act r s :=
    ranged (itemsOf 32 8 (rd8 r.body 0) (rd8 r.body 1)) fun ks =>
      accept s fun s => r.body ++ ks.flatMap s.equationEntry

/-! ### READ_OUTPUTS (R125) -/

def State.outputEntry (s : State) (o : Fin 16) : List Byte :=
  let r := s.out[o]
  [byteOf s.cfg.outputs[o].kind.code,
   byteOf (flagsNat [r.manual, r.commanded, r.readback, r.fault])] ++ le32 r.demanding.toNat ++
    msLeft16 (Timer.leftOpt r.pulse s.now) ++ [msLeft8 (Timer.leftOpt r.verify s.now)]

def handleReadOutputs : Handler where
  kind := 0x06
  lenOk n := n == 0
  gate := gateAny
  put := false
  act _ s := accept s fun s => (List.finRange 16).flatMap s.outputEntry

/-! ### READ_EVENTS (R149, R150, R175) -/

/-- The oldest records that fit whole in `room` bytes; the first that does not fit ends them. -/
def fitting (room : Nat) : List LogRecord → List LogRecord
  | [] => []
  | r :: rs => if r.bytes.length ≤ room then r :: fitting (room - r.bytes.length) rs else []

/-- READ_EVENTS: the release, then the end of point 261's condition where the release brings it, then the
reply (R148, R149). -/
def handleReadEvents : Handler where
  kind := 0x07
  lenOk n := n == 1
  gate := gateAny
  put := false
  act r s :=
    let k := rd8 r.body 0
    let released := s.log.releasable k
    accept (sysFollow false 5 { s with log := s.log.release k }) fun s =>
      let rs := fitting 195 s.log.recs
      [byteOf released] ++ le16 s.log.recs.length ++ [byteOf rs.length] ++ rs.flatMap LogRecord.bytes

/-! ### READ_CLOCK (R144) -/

def State.clockRecord (s : State) : List Byte :=
  s.clock.stamp.bytes ++
    [byteOf s.clock.state.code,
     sat8 (ceilDiv (leftSince s.clock.watch Config.minuteWatch s.now) Config.unitsPerSecond),
     byteOf s.cfg.settings.minutePulse.toNat] ++ le16 s.cfg.settings.syncWindow

def handleReadClock : Handler where
  kind := 0x08
  lenOk n := n == 0
  gate := gateAny
  put := false
  act _ s := accept s State.clockRecord

end Sys2Proof.Machine
end

