-- ==== Sys2Proof/Machine/Readback.lean ====
section
/-! DEFINITION. Readback verification, output faults, the manual demand and an accepted PUT_OUTPUT
(07 sections 7.1 to 7.3). -/
namespace Sys2Proof.Machine

/-- A fault of an output (R131). A fault flag already set takes no effect. -/
def faultOutput (o : Fin 16) (s : State) : State :=
  if s.out[o].fault then s
  else
    let s := s.modOut o fun r => { r with fault := true }
    let s := (s.record (.output o .fault)).setNews s.cfg.outputs[o].unit .fault
    sysFollow false 6 s

/-- A comparison of readback and commanded state, where readback is PRESENT (R130). -/
def compareOutput (o : Fin 16) (s : State) : State :=
  if s.cfg.outputs[o].readback && !s.out[o].agrees then faultOutput o s else s

/-- The verify timer of an output has run out (R130). -/
def endVerify (o : Fin 16) (s : State) : State :=
  compareOutput o (s.modOut o fun r => { r with verify := none })

/-- A change of the readback level: compared while the verify timer is stopped (R130). -/
def readbackLevel (o : Fin 16) (level : Bool) (s : State) : State :=
  if s.out[o].readback = level then s
  else
    let s := s.modOut o fun r => { r with readback := level }
    if s.out[o].verify.isNone then compareOutput o s else s

/-- The fault flag of an output is set and CLEAR_FAULTS, taken now, clears it: its readback is ABSENT or
agrees with the commanded state (R132). -/
def State.faultClears (s : State) (o : Fin 16) : Bool :=
  s.out[o].fault && !(s.cfg.outputs[o].readback && !s.out[o].agrees)

/-- The fault flag of an output is cleared, with its OUTPUT record (R132). -/
def clearFault (o : Fin 16) (s : State) : State :=
  (s.modOut o fun r => { r with fault := false }).record (.output o .faultCleared)

/-- CLEAR_FAULTS on the outputs of a mask, in ascending number, then point 262 (R132). Every readback is
judged as it stands when the request is taken, before the first FAULT_CLEARED record and what that may hand
on. -/
def clearFaultsOf (mask : Nat) (s : State) : State :=
  sysFollow false 6
    (each 16 (fun o t => if mask.testBit o.val && s.faultClears o then clearFault o t else t) s)

/-- Set or clear the manual demand of an output, nothing where it stands so already: the demand, its OUTPUT
record, the demand formed again with its rise or fall (R133). Where the record fills the log, what point 261
drives takes that after the output, a choice of the model (log entry 4). -/
def setManual (v : Bool) (o : Fin 16) (s : State) : State :=
  if s.out[o].manual = v then s
  else logged (fun s =>
    applyDemand o s.out[o].demanded
      ((s.modOut o fun r => { r with manual := v }).write
        (.output o (if v then .manualSet else .manualClear)))) s

/-- The effects of an accepted PUT_OUTPUT but for point 264 (R124). -/
def writeOutput (o : Fin 16) (c : OutputConfig) (s : State) : State :=
  let old := s.cfg.outputs[o]
  let s := s.setCfg { s.cfg with outputs := s.cfg.outputs.set o.val c o.isLt }
  let s := if c.kind = old.kind then s else changeKind o c.kind s
  if c.readback = old.readback then s else changeReadback o s

end Sys2Proof.Machine
end

