-- ==== Sys2Proof/Machine/TripRequests.lean ====
section
/-! DEFINITION. TRIP_RESET, ARM, FORCE, UNFORCE, CLEAR_NEWS, CLEAR_FAULTS, OUTPUT_SET, OUTPUT_CLEAR and
SET_TIME. -/
namespace Sys2Proof.Machine

/-! ### TRIP_RESET and ARM (R117, R118) -/

/-- The equations a request names: one, or with 255 all in use of the selected units. -/
def State.namedEquations (s : State) (sel : Word) (x : Nat) : Option (List (Fin 32)) :=
  if x = 255 then
    some ((List.finRange 32).filter fun k =>
      s.cfg.equations[k].inUse && (unitsOf sel).contains s.cfg.equations[k].unit)
  else (toFin 32 x).map fun k => [k]

/-- The named equations taken one after another, each with its outcome. -/
def takeEquations (f : Fin 32 → State → State × Outcome) (ks : List (Fin 32)) (s : State) :
    State × List (Fin 32 × Outcome) :=
  ks.foldl (fun (acc : State × List (Fin 32 × Outcome)) k =>
    let r := f k acc.1
    (r.1, acc.2 ++ [(k, r.2)])) (s, [])

/-- The reply lists each equation with its outcome; one named equation whose outcome is PRESENT is
answered PRESENT. -/
def equationsAnswer (one : Bool) (r : State × List (Fin 32 × Outcome)) : Verdict :=
  .accept {
    code := if one && (r.2.any fun x => x.2 == .present) then .present else .ok
    state := r.1
    data := fun _ =>
      byteOf r.2.length :: r.2.flatMap fun x => [byteOf x.1.val, byteOf x.2.code]
    after := fun s => s }

def handleTripReset : Handler where
  kind := 0x20
  lenOk n := n == 1
  gate := gateOperating
  put := false
  act r s :=
    ranged (s.namedEquations r.sel (rd8 r.body 0)) fun ks =>
      equationsAnswer (rd8 r.body 0 != 255) (takeEquations resetEquation ks s)

def handleArm : Handler where
  kind := 0x21
  lenOk n := n == 1
  gate := gateOperating
  put := false
  act r s :=
    ranged (s.namedEquations r.sel (rd8 r.body 0)) fun ks =>
      equationsAnswer (rd8 r.body 0 != 255) (takeEquations armEquation ks s)

/-! ### FORCE and UNFORCE (R15, R18) -/

/-- Kinds ALARM and STATUS can be forced (R15). -/
def PointKind.forceable : PointKind → Bool
  | .alarm | .status => true
  | .mode | .key | .spare | .system => false

/-- The point and the value of a FORCE. -/
def forceOperands (b : List Byte) : Option (Fin 268 × PointState) := do
  let p ← toFin 268 (rd16 b 0)
  let v ← flagOf (rd8 b 2)
  return (p, PointState.ofBit v)

def handleForce : Handler where
  kind := 0x22
  lenOk n := n == 5
  gate := gateOperating
  put := false
  act r s :=
    ranged (forceOperands r.body) fun x =>
      let minutes := clampMinutes (rd16 r.body 3)
      if !s.cfg.points[x.1].kind.forceable then .refuse .kind
      else if Config.forceCapacity ≤ s.forces.length && !s.forced x.1 then .refuse .full
      else accept (setForce x.1 x.2 minutes s) fun s => le16 minutes ++ [byteOf s.forces.length]

def handleUnforce : Handler where
  kind := 0x23
  lenOk n := n == 2
  gate := gateUnsettled
  put := false
  act r s :=
    let x := rd16 r.body 0
    if x = 65535 then accept (removeAllForces .request s) fun _ => [byteOf s.forces.length]
    else ranged (toFin 268 x) fun p =>
      if s.forced p then accept (removeForce .request p s) fun _ => [1#8] else .refuse .absent

/-! ### CLEAR_NEWS (R160) -/

def handleClearNews : Handler where
  kind := 0x24
  lenOk n := n == 1
  gate := gateUnsettled
  put := false
  act r s :=
    let us := unitsOf r.sel
    ranged (inRange 0 15 (rd8 r.body 0)) fun mask =>
      accept (clearNewsOf mask us s) fun s => us.map fun u => byteOf s.news[u].nat

/-! ### Outputs (R132, R133) -/

/-- A mask of the outputs for which `f` holds. -/
def outputMask (f : Fin 16 → Bool) : Nat := flagsNat ((List.finRange 16).map f)

def handleClearFaults : Handler where
  kind := 0x25
  lenOk n := n == 2
  gate := gateUnsettled
  put := false
  act r s :=
    let mask := rd16 r.body 0
    accept (clearFaultsOf mask s) fun s =>
      le16 (outputMask fun o => mask.testBit o.val && s.out[o].fault)

/-- OUTPUT_SET or OUTPUT_CLEAR on the outputs of a mask, in ascending number (R133). -/
def setManualOf (v : Bool) (mask : Nat) (s : State) : State :=
  each 16 (fun o s => if mask.testBit o.val then setManual v o s else s) s

def State.manualMask (s : State) : List Byte := le16 (outputMask fun o => s.out[o].manual)

def handleOutputSet : Handler where
  kind := 0x26
  lenOk n := n == 2
  gate := gateCommissioning
  put := false
  act r s := accept (setManualOf true (rd16 r.body 0) s) State.manualMask

def handleOutputClear : Handler where
  kind := 0x27
  lenOk n := n == 2
  gate := gateCommissioning
  put := false
  act r s := accept (setManualOf false (rd16 r.body 0) s) State.manualMask

/-! ### SET_TIME (R138) -/

/-- The time stamp of a SET_TIME. -/
def timeOperand (b : List Byte) : Option TimeStamp :=
  if rd32 b 2 < Config.unitsPerDay then some ⟨BitVec.ofNat 16 (rd16 b 0), rd32 b 2⟩ else none

def handleSetTime : Handler where
  kind := 0x28
  lenOk n := n == 6
  gate := gateAny
  put := false
  act r s :=
    ranged (timeOperand r.body) fun t =>
      let step := clampStep (t.span - s.clock.stamp.span)
      accept (setClockTime t s) fun s => leInt32 step ++ [byteOf s.clock.state.code]

end Sys2Proof.Machine
end

