-- ==== Sys2Proof/Machine/ConfigRequests.lean ====
section
/-! DEFINITION. The PUT and GET requests of the configured records (11 section 11.3). -/
namespace Sys2Proof.Machine

/-- An accepted PUT: the state after its effects, with point 264 following (R159), and its reply data.
For PUT_SETTINGS, whose rule gives point 264 no place, it comes last too, a choice of the model (log
entry 33). -/
def putAnswer (s : State) (data : State → List Byte) : Verdict := accept (markDiffers s) data

/-- The reply of a PUT that carries no data. -/
def noData (_ : State) : List Byte := []

/-- A GET of an item: its number as asked, then its record. -/
def getAnswer (s : State) (number : List Byte) (record : State → List Byte) : Verdict :=
  accept s fun s => number ++ record s

/-! ### Points (R2, R3, R4) -/

/-- The point is named as a mode point of some unit. -/
def Tables.namedMode (c : Tables) (p : Fin 268) : Bool :=
  (List.finRange 9).any fun u => c.units[u].modePoint p

/-- The point is named as the block key of some unit. -/
def Tables.namedKey (c : Tables) (p : Fin 268) : Bool :=
  (List.finRange 9).any fun u => c.units[u].key == some p

/-- The owner's checks of PUT_POINT on a candidate, in their order (R2). -/
def pointRefusal (cfg : Tables) (p : Fin 268) (mask : Nat) (c : PointConfig) : Option ResultCode :=
  if 256 ≤ p.val && mask % 128 != 0 then some .conflict
  else if (c.kind == .status || c.kind == .mode || c.kind == .key) &&
      (c.window.isSome || c.group.isSome) then some .conflict
  else if (cfg.namedMode p && c.kind != .mode) || (cfg.namedKey p && c.kind != .key) then
    some .conflict
  else match c.contributes with
    | none => none
    | some w =>
      if cfg.points[p].contributes != some w &&
          Config.contributorCapacity ≤ (cfg.contributors w).length then some .full
      else none

def handlePutPoint : Handler where
  kind := 0x30
  lenOk n := n == 14
  gate := gateAny
  put := true
  act r s :=
    ranged (toFin 268 (rd16 r.body 0)) fun p =>
      ranged (pointCandidate (256 ≤ p.val) s.cfg.points[p] r.body) fun c =>
        match pointRefusal s.cfg p (rd16 r.body 2) c with
        | some code => .refuse code
        | none => putAnswer (writePoint p c s) noData

def handleGetPoint : Handler where
  kind := 0x31
  lenOk n := n == 2
  gate := gateAny
  put := false
  act r s :=
    ranged (toFin 268 (rd16 r.body 0)) fun p => getAnswer s r.body fun s => s.cfg.points[p].bytes

/-! ### Units (R24, R25, R26) -/

/-- A selected role names a point that is not of the kind the role needs (R24). -/
def wrongRole (cfg : Tables) (mask k : Nat) (kind : PointKind) (p : Option (Fin 268)) : Bool :=
  mask.testBit k && p.any fun p => cfg.points[p].kind != kind

/-- The owner's checks of PUT_UNIT on a candidate (R24). -/
def unitConflict (cfg : Tables) (u : Fin 9) (mask : Nat) (c : UnitConfig) : Bool :=
  (u == 0 && mask % 16 != 0) ||
  (wrongRole cfg mask 0 .mode c.run || wrongRole cfg mask 1 .mode c.pump ||
    wrongRole cfg mask 2 .mode c.cond) ||
  wrongRole cfg mask 4 .key c.key

/-- The effects of an accepted PUT_UNIT but for point 264 (R25, R36). -/
def writeUnit (u : Fin 9) (c : UnitConfig) (s : State) : State :=
  let old := s.cfg.units[u]
  let s := s.setCfg { s.cfg with units := s.cfg.units.set u.val c u.isLt }
  let s := if c.settle != old.settle && s.settleDue u then endChangeover u s else s
  let s :=
    if c.run = old.run && c.pump = old.pump && c.cond = old.cond then s else redecode u s
  if c.key = old.key then s else reblock [u] s

def handlePutUnit : Handler where
  kind := 0x32
  lenOk n := n == 12
  gate := gateAny
  put := true
  act r s :=
    ranged (toFin 9 (rd8 r.body 0)) fun u =>
      ranged (unitCandidate s.cfg.units[u] r.body) fun c =>
        if unitConflict s.cfg u (rd8 r.body 1) c then .refuse .conflict
        else putAnswer (writeUnit u c s) noData

def handleGetUnit : Handler where
  kind := 0x33
  lenOk n := n == 1
  gate := gateAny
  put := false
  act r s :=
    ranged (toFin 9 (rd8 r.body 0)) fun u => getAnswer s r.body fun s => s.cfg.units[u].bytes

/-! ### Windows (R37, R38) -/

/-- The effects of an accepted PUT_WINDOW but for point 264 (R37). -/
def writeWindow (w : Fin 192) (c : WindowConfig) (s : State) : State :=
  let old := s.cfg.windows[w]
  let s := s.setCfg { s.cfg with windows := s.cfg.windows.set w.val c w.isLt }
  let s := if c.seq = old.seq then s else convertWindow w old.seq s
  if c.cls = old.cls then s else changeClass w old.cls s

def handlePutWindow : Handler where
  kind := 0x34
  lenOk n := n == 6
  gate := gateAny
  put := true
  act r s :=
    ranged (toFin 192 (rd8 r.body 0)) fun w =>
      ranged (windowCandidate s.cfg.windows[w] r.body) fun c =>
        putAnswer (writeWindow w c s) noData

def handleGetWindow : Handler where
  kind := 0x35
  lenOk n := n == 1
  gate := gateAny
  put := false
  act r s :=
    ranged (toFin 192 (rd8 r.body 0)) fun w => getAnswer s r.body fun s => s.cfg.windows[w].bytes

/-! ### Panels (R78, R79, R80) -/

/-- One window number stands twice in the list (R78). -/
def repeats (ws : List (Fin 192)) : Bool :=
  match ws with
  | [] => false
  | w :: rest => rest.contains w || repeats rest

def handlePutPanel : Handler where
  kind := 0x36
  lenOk n := 4 ≤ n && n ≤ 68
  gate := gateAny
  put := true
  act r s :=
    ranged (panelOf (rd8 r.body 0)) fun p =>
      ranged (panelRecord r.body) fun c =>
        if repeats c.positions then .refuse .conflict
        else putAnswer (writePanel p c s) fun _ => [byteOf c.brightness]

/-- The horn and the class of its cadence (11 section 11.2). -/
def Horn.bytes : Horn → List Byte
  | .silent => [0#8, 0#8]
  | .cadence c _ => [1#8, byteOf c.code]
  | .chime _ => [2#8, 0#8]

/-- A requested test: absent or running, its positions, its remaining seconds. -/
def testBytes (now : Nat) : Option RequestedTest → List Byte
  | none => [0#8, 0#8, 0#8, 0#8]
  | some t =>
    [1#8, byteOf t.first, byteOf t.last,
     sat8 (ceilDiv (t.start + t.seconds * Config.unitsPerSecond - now) Config.unitsPerSecond)]

/-- The runtime fields of GET_PANEL (R80, 11 section 11.2). -/
def State.panelRuntime (s : State) (p : Fin 4) : List Byte :=
  let r := s.pan[p]
  [byteOf r.link.code, byteOf r.misses, byteOf r.keys.toNat, byteOf r.brightness,
   byteOf r.calls.nat] ++ r.horn.bytes ++ [byteOf r.keyTest.toNat] ++ testBytes s.now r.test

/-- GET_PANEL: the panel record, then the runtime fields (log entry 17). -/
def handleGetPanel : Handler where
  kind := 0x37
  lenOk n := n == 1
  gate := gateAny
  put := false
  act r s :=
    ranged (panelOf (rd8 r.body 0)) fun p =>
      accept s fun s => s.cfg.panels[p].bytes ++ s.panelRuntime p

/-! ### Groups (R63, R64) -/

/-- The effects of an accepted PUT_GROUP but for point 264 (R63). -/
def writeGroup (g : Fin 16) (c : GroupConfig) (s : State) : State :=
  s.setCfg { s.cfg with groups := s.cfg.groups.set g.val c g.isLt }

def handlePutGroup : Handler where
  kind := 0x38
  lenOk n := n == 4
  gate := gateAny
  put := true
  act r s :=
    ranged (toFin 16 (rd8 r.body 0)) fun g =>
      ranged (groupCandidate s.cfg.groups[g] r.body) fun c => putAnswer (writeGroup g c s) noData

def handleGetGroup : Handler where
  kind := 0x39
  lenOk n := n == 1
  gate := gateAny
  put := false
  act r s :=
    ranged (toFin 16 (rd8 r.body 0)) fun g => getAnswer s r.body fun s => s.cfg.groups[g].bytes

/-! ### Equations (R104 to R108, R174) -/

/-- What an accepted PUT_EQUATION does with its record (R106). -/
def writeEquation (k : Fin 32) (c : EquationRecord) (s : State) : State :=
  match s.eqn[k].state with
  | .timing | .tripped =>
    s.modEqn k fun r => { r with staged := some c, overwrite := r.overwrite || r.staged.isSome }
  | .unused | .disarmed | .idle | .blocked => install k c s

def handlePutEquation : Handler where
  kind := 0x3A
  lenOk n := n == 18
  gate := gateAny
  put := true
  act r s :=
    ranged (toFin 32 (rd8 r.body 0)) fun k =>
      ranged (equationRecord r.body) fun c =>
        if !(c.a.below k && c.b.below k) then .refuse .order
        else putAnswer (writeEquation k c s) fun s =>
          [byteOf s.eqn[k].state.code, byteOf s.eqn[k].staged.isSome.toNat]

/-- The pending record as 17 bytes, all 0 when none is held (R174). -/
def stagedBytes : Option EquationRecord → List Byte
  | none => List.replicate 17 0#8
  | some c => c.bytes

def handleGetEquation : Handler where
  kind := 0x3B
  lenOk n := n == 1
  gate := gateAny
  put := false
  act r s :=
    ranged (toFin 32 (rd8 r.body 0)) fun k =>
      getAnswer s r.body fun s =>
        s.cfg.equations[k].bytes ++ [byteOf s.eqn[k].pendingNat] ++ stagedBytes s.eqn[k].staged ++
          [byteOf s.eqn[k].state.code] ++ msLeft16 (s.delayLeft k)

/-! ### Outputs (R124, R125) -/

def handlePutOutput : Handler where
  kind := 0x3C
  lenOk n := n == 8
  gate := gateAny
  put := true
  act r s :=
    ranged (toFin 16 (rd8 r.body 0)) fun o =>
      ranged (outputCandidate s.cfg.outputs[o] r.body) fun c => putAnswer (writeOutput o c s) noData

def handleGetOutput : Handler where
  kind := 0x3D
  lenOk n := n == 1
  gate := gateAny
  put := false
  act r s :=
    ranged (toFin 16 (rd8 r.body 0)) fun o => getAnswer s r.body fun s => s.cfg.outputs[o].bytes

/-! ### Settings (R163, R164) -/

/-- The decay timer restarts with a new interval, where it runs (R8). -/
def restartDecay (s : State) : State := { s with decay := s.decay.map fun _ => s.now }

/-- The silence timer restarts with a new timeout; 0 stops it (R162). -/
def restartSilence (s : State) : State :=
  s.setLink { s.link with silence := if s.cfg.settings.silence = 0 then none else some s.now }

/-- The effects of an accepted PUT_SETTINGS but for point 264, which comes after them (R159; log entry
33), and the link speed, which follows the reply (R163). -/
def writeSettings (c : Settings) (s : State) : State :=
  let old := s.cfg.settings
  let s := s.setCfg { s.cfg with settings := c }
  let s := if c.decay = old.decay then s else restartDecay s
  let s := if c.silence = old.silence then s else restartSilence s
  if c.minutePulse = old.minutePulse then s else minutePulseSetting s

/-- PUT_SETTINGS (R163); the transition of point 264 comes last (log entry 33). -/
def handlePutSettings : Handler where
  kind := 0x3E
  lenOk n := n == 10
  gate := gateAny
  put := true
  act r s :=
    ranged (settingsCandidate s.cfg.settings r.body) fun c => putAnswer (writeSettings c s) noData

def handleGetSettings : Handler where
  kind := 0x3F
  lenOk n := n == 0
  gate := gateAny
  put := false
  act _ s := accept s fun s => s.cfg.settings.bytes

end Sys2Proof.Machine
end

