-- ==== Sys2Proof/Machine/Starts.lean ====
section
/-! DEFINITION. Service states, the store, the starts and the start-up settle (10), with the parts of
each that the other chapters state. -/
namespace Sys2Proof.Machine

/-! ### The image (R168) -/

/-- The fields of a system point but its window and group are fixed (01 section 1.1). -/
def PointConfig.inRange (system : Bool) (c : PointConfig) : Bool :=
  (c.kind == .system) == system && c.debounce ≤ 255 && c.weight ≤ 63 &&
    1 ≤ c.threshold && c.threshold ≤ 255 &&
    (!system || (c.unit == 0 && c.sense == .alarmOnClosed && c.debounce == 0 && c.weight == 0 &&
      c.threshold == 255 && c.mask == 0b11111 && c.logging))

/-- Unit 0 has a block key and no other configured field (02 section 2.1). -/
def UnitConfig.inRange (common : Bool) (c : UnitConfig) : Bool :=
  c.settle ≤ 600 &&
    (!common || (c.run.isNone && c.pump.isNone && c.cond.isNone && c.settle == 0))

def OutputConfig.inRange (c : OutputConfig) : Bool :=
  10 ≤ c.width && c.width ≤ 5000 && c.width % 10 == 0 && 5 ≤ c.verify && c.verify ≤ 250

def Settings.inRange (c : Settings) : Bool :=
  100 ≤ c.decay && c.decay ≤ 10000 && c.decay % 100 == 0 && c.silence ≤ 255 && c.syncWindow ≤ 5000

def PanelConfig.inRange (c : PanelConfig) : Bool :=
  c.positions.length ≤ 64 && 1 ≤ c.brightness && c.brightness ≤ 8

/-- Every field of every record lies in its range; where the type holds no other value, nothing is
asked. -/
def Tables.inRange (c : Tables) : Bool :=
  (List.finRange 268).all (fun p => c.points[p].inRange (256 ≤ p.val)) &&
  (List.finRange 9).all (fun u => c.units[u].inRange (u == 0)) &&
  (List.finRange 4).all (fun p => c.panels[p].inRange) &&
  (List.finRange 16).all (fun g => c.groups[g].resolve ≤ 255) &&
  (List.finRange 32).all (fun k => c.equations[k].delay ≤ 60000) &&
  (List.finRange 16).all (fun o => c.outputs[o].inRange) && c.settings.inRange

/-- A named role is filled by a point of its kind. -/
def Tables.roleOk (c : Tables) (kind : PointKind) (p : Option (Fin 268)) : Bool :=
  p.all fun p => c.points[p].kind == kind

/-- The laws of the configured tables that a good image keeps. -/
def Tables.lawful (c : Tables) : Bool :=
  (List.finRange 32).all (fun k => c.equations[k].a.below k && c.equations[k].b.below k) &&
  (List.finRange 192).all
    (fun w => (c.contributors w).length ≤ Config.contributorCapacity) &&
  (List.finRange 4).all (fun p => !repeats c.panels[p].positions) &&
  (List.finRange 9).all fun u =>
    let x := c.units[u]
    c.roleOk .mode x.run && c.roleOk .mode x.pump && c.roleOk .mode x.cond && c.roleOk .key x.key

/-- The image is good. -/
def StoredImage.good (i : StoredImage) : Bool := i.check && i.tables.inRange && i.tables.lawful

/-- The image becomes the working configuration, or the defaults are taken (R168). -/
def loadImage (s : State) : State :=
  let i := s.store.image
  if i.good then
    { s with cfg := i.tables, service := i.service,
             store := { s.store with lastFailed := false, differs := false } }
  else
    { s with cfg := Tables.default, service := .unconfigured,
             store := { s.store with lastFailed := false, differs := true } }

/-- A power-on or reset-line start ends a SAVE unfinished (R169): the free value of log entry 10 says
whether the write had completed. The draw counter advances by one. -/
def endSave (s : State) : State :=
  match s.store.job with
  | none => s
  | some j =>
    let image :=
      if Config.saveWriteDone s.draws then ⟨j.tables, j.service, true⟩
      else { s.store.image with check := false }
    { s with draws := s.draws + 1, store := { s.store with image := image, job := none } }

/-! ### Start values -/

/-- The start values of a point but for its active flag's arrivals (R19, R14). -/
def PointRun.started (t : TimeStamp) (system : Bool) (r : PointRun) : PointRun :=
  { r.unqualified with raw := r.raw && !system, suppressed := 0, lastEdge := t, active := false }

def startPoints (s : State) : State :=
  let t := s.stamp
  { s with forces := [], decay := none,
           pt := tab fun p => s.pt[p].started t (256 ≤ p.val) }

/-- The start values of the units: each mode formed directly, not blocked (R34). -/
def startUnits (s : State) : State :=
  { s with un := tab fun u =>
      { decoded := s.decode u, current := s.decode u, target := none, settle := none,
        blocked := false } }

/-- The start values of a panel (R100). What the fascia shows and the last frame sent are not reset. A
10 ms wait that runs is ended, so a KEY reply to a frame sent before the start is discarded, a choice of
the model (log entry 31). -/
def PanelRun.started (c : PanelConfig) (r : PanelRun) : PanelRun :=
  { link := if c.enabled then .starting else .disabled, misses := 0, seen := none, keys := 0,
    brightness := c.brightness, calls := ClassSet.empty, horn := .silent, keyTest := false,
    test := none, exchange := none, lostFor := 0, lastFrame := r.lastFrame, fascia := r.fascia }

def startPanels (s : State) : State :=
  { s with frameClock := ⟨0, false, s.now⟩,
           pan := tab fun p => s.pan[p].started s.cfg.panels[p] }

/-- Every equation UNUSED, its terms formed from the active record (R122). -/
def startEquations (s : State) : State :=
  let s := { s with eqn := tab fun _ =>
    { state := .unused, a := false, b := false, cond := false, timing := none, cause := none,
      staged := none, overwrite := false } }
  each 32 formTerms s

/-- The start values of the outputs (R135). -/
def startOutputs (s : State) : State :=
  { s with out := tab fun o =>
      { demanding := 0, manual := false, commanded := false, pulse := none,
        verify := s.freshVerify o, readback := s.out[o].readback, fault := false } }

/-- The link's items that every start sets alike (R165). -/
def startLink (s : State) : State :=
  { s with
    news := tab fun _ => ⟨false, false, false, false⟩
    link := { s.link with
      station := s.link.straps
      silence := if s.cfg.settings.silence = 0 then none else some s.now
      silent := false } }

/-- Step 3 of R171: the log emptied, every block at its start values, and step 1's straps. -/
def startBlocks (s : State) : State :=
  let s := { s with log := ⟨[], 0⟩, settle := none }
  let s := startUnits (startPoints s)
  let s := { s with win := tab fun _ => .quiet, grp := tab fun g => s.grp[g].rearmed }
  startLink (startOutputs (startEquations (startPanels s)))

/-- Steps 3 to 6 of R171: start values, the SERVICE record, the start-up transitions, the settle. -/
def restart (cause : ServiceCause) (s : State) : State :=
  let s := startBlocks s
  let s := s.record (.service s.service cause)
  let s := each 12 (sysFollow true) s
  if s.service = .unconfigured then s else { s with settle := some s.now }

/-- The start from the store, with the causes for a good and a bad image (R171). -/
def reload (good bad : ServiceCause) (s : State) : State :=
  let s := endSave s
  let cause := if s.store.image.good then good else bad
  let s := loadImage s
  restart cause (s.setLink { s.link with receiver := .hunt, speed := s.cfg.settings.speed })

/-- Power-on: the clock UNSET at day 0, then the start (R171, R145). -/
def powerOnStart (s : State) : State :=
  reload .powerOn .powerOnDefaults (s.setClock ⟨TimeStamp.zero, .unset, none⟩)

/-- Reset line: the clock kept (R171, R145). A LOCKED clock stays LOCKED also where the image loaded
disables the minute pulse; its watch then runs to its LAPSE, a choice of the model (log entry 32). -/
def resetLineStart (s : State) : State := reload .resetLine .resetLineDefaults s

/-- The effects of CLEAR_ALL (R172): pending records become active records, then the start. The
receiver, the link speed, the clock and the store are kept. -/
def clearAllStart (s : State) : State :=
  let s := s.setCfg { s.cfg with
    equations := tab fun k => s.eqn[k].staged.getD s.cfg.equations[k] }
  restart .clearAll s

/-! ### The start-up settle (R170) -/

/-- The settle of 250 ms has run. -/
def State.settleOver (s : State) : Bool := dueSince s.settle Config.settleLength s.now

/-- Seeding of a field point at the settle end (R20). -/
def seedPoint (p : Fin 268) (s : State) : State :=
  let c := s.cfg.points[p]
  if c.kind.qualified then
    let t := s.stamp
    let q := s.level p
    let s := s.modPt p fun r => { r with qual := q, debounce := none, lastEdge := t }
    if q = .abnormal && c.logging then s.write (.point p q { startup := true } t) else s
  else s

/-- The unit's mode decoded directly, with its MODE record and news where it changes (R35). Where a record of
the seeding fills the log, what point 261 drives takes that with its active flag in `endSettle`. -/
def seedUnit (u : Fin 9) (s : State) : State :=
  let d := s.decode u
  let old := s.un[u].current
  let blocked := s.keyBlocks u
  let s := s.modUn u fun r =>
    { r with decoded := d, current := d, target := none, settle := none, blocked := blocked }
  if old = d then s else recordMode u old d s

/-- Each block seeds itself from the levels sampled (R170; log entry 20). Point 261, where the records of the
seeding fill the log, reaches its window with the other active flags, with cause STARTUP (R14), and the
equations at their own seeding (log entry 4). -/
def endSettle (s : State) : State :=
  let t := s.stamp
  let s := { s with settle := none }
  let s := each 9 seedUnit (each 256 (fun p => seedPoint (fieldPoint p)) s)
  let s := each 268 (fun p s => evalActive p .startup t s) s
  let s := sysFollow true 10 s
  let s := each 32 seedEquation s
  { s with decay := some s.now }

/-! ### SAVE (R169) -/

/-- The copy that a SAVE takes. -/
def beginSave (s : State) : State :=
  let held := (List.finRange 32).any fun k => s.eqn[k].staged.isSome
  s.setStore { s.store with job := some ⟨s.cfg, s.service, held, s.now⟩ }

def handleSave : Handler where
  kind := 0x40
  lenOk n := n == 0
  gate := gateUnsettled
  put := true
  act _ s := accept (beginSave s) fun s => [byteOf s.store.state.code]

/-- The image reads back good within 2 s (R169). Where both points go NORMAL, 264 takes its transition
before 267, a choice of the model (log entry 37). -/
def saveDone (j : SaveJob) (s : State) : State :=
  let s := s.setStore
    { image := ⟨j.tables, j.service, true⟩, job := none, lastFailed := false,
      differs := s.store.differs && j.stagedHeld }
  sysFollow false 11 (sysFollow false 8 s)

/-- What the store holds after a failed SAVE is the free value of log entry 9. The draw counter
advances by one. -/
def failedImage (x : Config.FailedSave) (j : SaveJob) (old : StoredImage) : StoredImage :=
  match x with
  | .keepsOld => old
  | .holdsCopy => ⟨j.tables, j.service, true⟩
  | .bad => { old with check := false }

def saveFailed (j : SaveJob) (s : State) : State :=
  let image := failedImage (Config.failedSaveLeaves s.draws) j s.store.image
  let s := s.setStore { s.store with image := image, job := none, lastFailed := true }
  sysFollow false 11 { s with draws := s.draws + 1 }

/-! ### SET_SERVICE (R167) -/

/-- The change from UNCONFIGURED to COMMISSIONING: the settle begins (R170, R100). -/
def beginSettle (s : State) : State := each 4 settlePanel { s with settle := some s.now }

/-- Field points at a return to UNCONFIGURED: CHATTER_OFF records in ascending number, then NORMAL and
not active (R19; log entry 22). -/
def chatterOffAtReturn (p : Fin 268) (s : State) : State :=
  let r := s.pt[p]
  if p.val < 256 && r.chattering && s.cfg.points[p].logging then
    s.record (.chatterOff p r.qual r.suppressed)
  else s

def returnPoints (s : State) : State :=
  let s := each 268 chatterOffAtReturn s
  let t := s.stamp
  { s with decay := none,
           pt := tab fun p =>
             let r := s.pt[p]
             if p.val < 256 then { r.unqualified with suppressed := 0, lastEdge := t, active := false }
             else r }

/-- A unit at a return to UNCONFIGURED takes its start values, with a MODE record where its current
mode changes (R36). -/
def returnUnit (u : Fin 9) (s : State) : State :=
  let d := s.decode u
  let old := s.un[u].current
  let s := s.modUn u fun r =>
    { r with decoded := d, current := d, target := none, settle := none, blocked := false }
  if old = d then s else logged (recordMode u old d) s

/-- Every window that an active system point feeds takes its arrival again (R62). -/
def rearriveSystem (s : State) : State :=
  each 12 (fun k s =>
    let p := sysPoint k
    match s.pt[p].active, s.cfg.points[p].contributes with
    | true, some w => arrival w 0 s
    | _, _ => s) s

/-- An output at a return to UNCONFIGURED: its pulse cancelled, its fault flag cleared, de-energized
under the service gate (R134). -/
def returnOutput (o : Fin 16) (s : State) : State :=
  setCommanded o false (s.modOut o fun r => { r with pulse := none, fault := false })

/-- The return from COMMISSIONING to UNCONFIGURED, in the order of the chapters (R167). Choices of the model
within it: the force entries are removed in table order, each whole before the next (log entry 38); the
units are taken, and their MODE records written, in ascending number (R36; log entry 30), and point 266 goes
NORMAL once, after all of them (log entry 36); point 262 goes NORMAL once, after all MANUAL_CLEAR records and
the de-energizing of the outputs (R134; log entry 39). -/
def returnUnconfigured (s : State) : State :=
  let s := returnPoints (removeAllForces .clear s)
  let s := sysFollow false 10 (each 9 returnUnit s)
  let s := rearriveSystem (quietWindows s)
  let s := each 16 rearmGroup s
  let s := each 32 formTerms (each 32 (fun k => logged (returnEquation k)) s)
  let s := each 16 returnOutput (each 16 (setManual false) s)
  sysFollow false 6 s

/-- A change of service state that is taken: the SERVICE record, then each block (R167). -/
def changeService (target : Service) (s : State) : State :=
  let was := s.service
  let s := { s with service := target }
  let s := s.record (.service target .request)
  match was, target with
  | .unconfigured, .commissioning => beginSettle s
  | .commissioning, .inService => each 16 (setManual false) s
  | .commissioning, .unconfigured => returnUnconfigured s
  | _, _ => s

/-- The service state and whether a settle runs, as two bytes. -/
def State.serviceBytes (s : State) : List Byte := [byteOf s.service.code, byteOf s.settle.isSome.toNat]

def handleSetService : Handler where
  kind := 0x41
  lenOk n := n == 1
  gate := gateUnsettled
  put := false
  act r s :=
    ranged (serviceOf (rd8 r.body 0)) fun target =>
      match s.service, target with
      | .unconfigured, .inService | .inService, .unconfigured => .refuse .state
      | was, target =>
        accept (if was = target then s else changeService target s) State.serviceBytes

def handleClearAll : Handler where
  kind := 0x42
  lenOk n := n == 0
  gate := gateCommissioning
  put := false
  act _ s := accept (clearAllStart s) State.serviceBytes

end Sys2Proof.Machine
end

