-- ==== Sys2Proof/WellFormed.lean ====
section
/-! DEFINITION. Which commands a sender can send: the operand checks of the command set. -/
namespace Sys2Proof

/-- The request kind codes of 11 section 11.2. -/
def knownKinds : List Nat :=
  [0x01, 0x02, 0x03, 0x04, 0x05, 0x06, 0x07, 0x08] ++
  [0x10, 0x11, 0x12, 0x13, 0x14, 0x15] ++
  [0x20, 0x21, 0x22, 0x23, 0x24, 0x25, 0x26, 0x27, 0x28] ++
  [0x30, 0x31, 0x32, 0x33, 0x34, 0x35, 0x36, 0x37] ++
  [0x38, 0x39, 0x3A, 0x3B, 0x3C, 0x3D, 0x3E, 0x3F] ++
  [0x40, 0x41, 0x42]

/-- A request body fits a frame: 0..200 bytes (09 section 9.1). -/
def Request.wf (r : Request) : Bool := r.body.length ≤ 200

/-- A complete frame: the lead 210, a length byte of at most 200, eight bytes plus that length (R153). -/
def frameWf (f : List Byte) : Bool :=
  f.head? == some 210#8 && 8 ≤ f.length &&
    (f.getD 5 0#8).toNat ≤ 200 && f.length == 8 + (f.getD 5 0#8).toNat

/-- A command is well formed when its operands name something its sender can name: a unit with a
settle timer (R23), a KEY reply of six bytes (R176), a body that fits a frame, a complete frame
(R153), a kind code below 128 that no request has (R156). -/
def Instr.wf : Instr → Bool
  | .modeSettleExpiry u => u ≠ 0
  | .keyReply _ bytes => bytes.length = 6
  | .frameDiscard f => frameWf f
  | .unknownRequestKind k r => k.toNat < 128 && !knownKinds.contains k.toNat && r.wf
  | .contactLevelChange _ _ | .debounceExpiry _ | .chatterDecayExpiry | .forceExpiry _
  | .groupSettleExpiry _ | .frameClockPeriod | .keyReplyMiss _ | .requestedTestExpiry _
  | .chimeEnd _ | .delayExpiry _ | .pulseExpiry _ | .verifyExpiry _ | .readbackChange _ _
  | .minutePulse | .minuteWatchExpiry | .stationLinkByte _ | .interByteSilence | .replySent
  | .silenceTimerExpiry | .saveSuccess | .saveFailure | .settleEnd | .powerOn | .resetLine => true
  | .readStatus r | .readPoints r | .readWindows r | .readGroups r | .readEquations r
  | .readOutputs r | .readEvents r | .readClock r | .ack r | .silence r | .resetWindows r
  | .resetGroups r | .lampTest r | .brightness r | .tripReset r | .arm r | .force r
  | .unforce r | .clearNews r | .clearFaults r | .outputSet r | .outputClear r | .setTime _ r
  | .putPoint r | .getPoint r | .putUnit r | .getUnit r | .putWindow r | .getWindow r
  | .putPanel r | .getPanel r | .putGroup r | .getGroup r | .putEquation r | .getEquation r
  | .putOutput r | .getOutput r | .putSettings r | .getSettings r | .save r | .setService r
  | .clearAll r => r.wf

end Sys2Proof
end

