-- ==== Sys2Proof/Machine/LinkEvents.lean ====
section
/-! DEFINITION. The frame receiver: the judging of frames, and the meanings of the link events
(09 sections 9.1 and 9.6). -/
namespace Sys2Proof.Machine

/-- Every request kind with its owner. -/
def handlers : List Handler :=
  [handleReadStatus, handleReadPoints, handleReadWindows, handleReadGroups, handleReadEquations,
   handleReadOutputs, handleReadEvents, handleReadClock] ++
  [handleAck, handleSilence, handleResetWindows, handleResetGroups, handleLampTest,
   handleBrightness] ++
  [handleTripReset, handleArm, handleForce, handleUnforce, handleClearNews, handleClearFaults,
   handleOutputSet, handleOutputClear, handleSetTime] ++
  [handlePutPoint, handleGetPoint, handlePutUnit, handleGetUnit, handlePutWindow, handleGetWindow,
   handlePutPanel, handleGetPanel] ++
  [handlePutGroup, handleGetGroup, handlePutEquation, handleGetEquation, handlePutOutput,
   handleGetOutput, handlePutSettings, handleGetSettings] ++
  [handleSave, handleSetService, handleClearAll]

/-- The owner of a kind code; none for an unknown kind (R156 check 1). -/
def handlerOf (kind : Nat) : Option Handler := handlers.find? fun h => h.kind == kind

/-- The judgement of a complete frame (R154). `dropped` is a frame that is no valid frame; `broadcast`
one that is valid and not taken. -/
inductive FrameVerdict where
  | dropped
  | broadcast
  | broadcastTime (r : Request)
  | request (kind : Nat) (r : Request)
  deriving DecidableEq, Repr

/-- The check word of a frame verifies (R154 step 1). -/
def frameChecks (f : List Byte) : Bool :=
  let inner := (f.drop 1).take (f.length - 3)
  f.drop (f.length - 2) == le16 (crc16 inner).toNat

/-- The request that a frame carries (11 section 11.2). -/
def frameRequest (f : List Byte) : Request :=
  ⟨BitVec.ofNat 16 (rd16 f 3), (f.drop 6).take (rd8 f 5)⟩

/-- The steps of R154, for a station number (0: no station number). A station without a number discards
every frame but a broadcast SET_TIME at step 2 (log entry 19). -/
def judgeFrame (station : Nat) (f : List Byte) : FrameVerdict :=
  let address := rd8 f 1
  let kind := rd8 f 2
  if !frameChecks f then .dropped
  else if address ≠ 0 && address ≠ station then .dropped
  else if 128 ≤ kind then .dropped
  else if address = 0 then
    if kind = handleSetTime.kind then .broadcastTime (frameRequest f)
    else if station = 0 then .dropped
    else .broadcast
  else .request kind (frameRequest f)

/-- The receiver in HUNT. -/
def State.hunt (s : State) : State := s.setLink { s.link with receiver := .hunt }

/-- A request of a kind code is taken: by its owner, or refused KIND. -/
def takeKind (kind : Nat) (r : Request) (s : State) : State :=
  match handlerOf kind with
  | some h => h.take r s
  | none => takeUnknown kind r.sel s

/-- A complete frame is judged and acted on (R154, R155). -/
def takeFrame (f : List Byte) (s : State) : State :=
  let s := s.hunt
  match judgeFrame s.link.station.toNat f with
  | .dropped => s
  | .broadcast => validFrame s
  | .broadcastTime r => handleSetTime.takeBroadcast r s
  | .request kind r => takeKind kind r s

/-- The receiver as a byte finds it: silence of more than 3 ms has ended a reception (R153; log
entry 23). -/
def Receiver.atByte (r : Receiver) (now : Nat) : Receiver :=
  match r with
  | .receiving _ t | .skip t => if t + Config.interByte < now then .hunt else r
  | .hunt | .replying _ => r

/-- A byte collected after others (R153). -/
def collect (bytes : List Byte) (s : State) : State :=
  if bytes.length = 6 && 200 < rd8 bytes 5 then
    s.setLink { s.link with receiver := .skip s.now }
  else if 6 ≤ bytes.length && bytes.length = 8 + rd8 bytes 5 then takeFrame bytes s
  else s.setLink { s.link with receiver := .receiving bytes s.now }

/-- A byte of the line (R153). -/
def takeByte (b : Byte) (s : State) : State :=
  match s.link.receiver.atByte s.now with
  | .hunt =>
    if b = 210#8 then s.setLink { s.link with receiver := .receiving [b] s.now } else s.hunt
  | .receiving bytes _ => collect (bytes ++ [b]) s
  | .skip _ => s.setLink { s.link with receiver := .skip s.now }
  | .replying _ => s

/-- STATION_LINK_BYTE (R153, R154, R155). -/
def execStationLinkByte (b : Byte) (s : State) : Host.Outcome State Fault Refusal :=
  .next (takeByte b s)

/-- The receiver has heard more than 3 ms of silence while it collected or skipped (R153). -/
def State.silenceHeard (s : State) : Bool :=
  match s.link.receiver with
  | .receiving _ t | .skip t => t + Config.interByte < s.now
  | .hunt | .replying _ => false

/-- INTER_BYTE_SILENCE (R153): the frame is abandoned without reply. -/
def execInterByteSilence (s : State) : Host.Outcome State Fault Refusal :=
  if s.silenceHeard then .next s.hunt else .next s

/-- FRAME_DISCARD (R154): a complete frame that is not taken. A frame that would be taken is not this
command's and changes nothing. -/
def execFrameDiscard (f : List Byte) (s : State) : Host.Outcome State Fault Refusal :=
  if s.listening && frameWf f then
    match judgeFrame s.link.station.toNat f with
    | .dropped => .next s.hunt
    | .broadcast => .next (validFrame s.hunt)
    | .broadcastTime _ | .request _ _ => .next s
  else .next s

/-- UNKNOWN_REQUEST_KIND (R156 check 1). A known kind or a reply kind is not this command's and changes
nothing. -/
def execUnknownRequestKind (kind : Byte) (r : Request) (s : State) :
    Host.Outcome State Fault Refusal :=
  if s.listening && s.addressed && kind.toNat < 128 && (handlerOf kind.toNat).isNone then
    .next (takeUnknown kind.toNat r.sel s)
  else .next s

/-- REPLY_SENT (R153, R163): HUNT, at the configured link speed. -/
def execReplySent (s : State) : Host.Outcome State Fault Refusal :=
  match s.link.receiver with
  | .replying _ =>
    .next (s.setLink { s.link with receiver := .hunt, speed := s.cfg.settings.speed })
  | .hunt | .receiving _ _ | .skip _ => .next s

/-- The silence timer has run its timeout (R162). -/
def State.silenceDue (s : State) : Bool :=
  dueSince s.link.silence (s.cfg.settings.silence * Config.unitsPerSecond) s.now

/-- SILENCE_TIMER_EXPIRY (R162). -/
def execSilenceTimerExpiry (s : State) : Host.Outcome State Fault Refusal :=
  if s.silenceDue then
    .next (sysFollow false 9 (s.setLink { s.link with silence := none, silent := true }))
  else .next s

end Sys2Proof.Machine
end

