-- ==== Sys2Proof/Machine/Requests.lean ====
section
/-! DEFINITION. The meanings of the requests: each a whole frame with this station's address, taken by
its owner (R155, R156; log entry 3). -/
namespace Sys2Proof.Machine

/-- READ_STATUS (R158). -/
def execReadStatus (r : Request) (s : State) : Host.Outcome State Fault Refusal :=
  .next (serve handleReadStatus r s)

/-- READ_POINTS (R4). -/
def execReadPoints (r : Request) (s : State) : Host.Outcome State Fault Refusal :=
  .next (serve handleReadPoints r s)

/-- READ_WINDOWS (R38). -/
def execReadWindows (r : Request) (s : State) : Host.Outcome State Fault Refusal :=
  .next (serve handleReadWindows r s)

/-- READ_GROUPS (R64). -/
def execReadGroups (r : Request) (s : State) : Host.Outcome State Fault Refusal :=
  .next (serve handleReadGroups r s)

/-- READ_EQUATIONS (R108). -/
def execReadEquations (r : Request) (s : State) : Host.Outcome State Fault Refusal :=
  .next (serve handleReadEquations r s)

/-- READ_OUTPUTS (R125). -/
def execReadOutputs (r : Request) (s : State) : Host.Outcome State Fault Refusal :=
  .next (serve handleReadOutputs r s)

/-- READ_EVENTS (R149, R150). -/
def execReadEvents (r : Request) (s : State) : Host.Outcome State Fault Refusal :=
  .next (serve handleReadEvents r s)

/-- READ_CLOCK (R144). -/
def execReadClock (r : Request) (s : State) : Host.Outcome State Fault Refusal :=
  .next (serve handleReadClock r s)

/-- ACK (R91). -/
def execAck (r : Request) (s : State) : Host.Outcome State Fault Refusal :=
  .next (serve handleAck r s)

/-- SILENCE (R93). -/
def execSilence (r : Request) (s : State) : Host.Outcome State Fault Refusal :=
  .next (serve handleSilence r s)

/-- RESET_WINDOWS (R92). -/
def execResetWindows (r : Request) (s : State) : Host.Outcome State Fault Refusal :=
  .next (serve handleResetWindows r s)

/-- RESET_GROUPS (R74). -/
def execResetGroups (r : Request) (s : State) : Host.Outcome State Fault Refusal :=
  .next (serve handleResetGroups r s)

/-- LAMP_TEST (R96). -/
def execLampTest (r : Request) (s : State) : Host.Outcome State Fault Refusal :=
  .next (serve handleLampTest r s)

/-- BRIGHTNESS (R94). -/
def execBrightness (r : Request) (s : State) : Host.Outcome State Fault Refusal :=
  .next (serve handleBrightness r s)

/-- TRIP_RESET (R117). -/
def execTripReset (r : Request) (s : State) : Host.Outcome State Fault Refusal :=
  .next (serve handleTripReset r s)

/-- ARM (R118). -/
def execArm (r : Request) (s : State) : Host.Outcome State Fault Refusal :=
  .next (serve handleArm r s)

/-- FORCE (R15). -/
def execForce (r : Request) (s : State) : Host.Outcome State Fault Refusal :=
  .next (serve handleForce r s)

/-- UNFORCE (R18). -/
def execUnforce (r : Request) (s : State) : Host.Outcome State Fault Refusal :=
  .next (serve handleUnforce r s)

/-- CLEAR_NEWS (R160). -/
def execClearNews (r : Request) (s : State) : Host.Outcome State Fault Refusal :=
  .next (serve handleClearNews r s)

/-- CLEAR_FAULTS (R132). -/
def execClearFaults (r : Request) (s : State) : Host.Outcome State Fault Refusal :=
  .next (serve handleClearFaults r s)

/-- OUTPUT_SET (R133). -/
def execOutputSet (r : Request) (s : State) : Host.Outcome State Fault Refusal :=
  .next (serve handleOutputSet r s)

/-- OUTPUT_CLEAR (R133). -/
def execOutputClear (r : Request) (s : State) : Host.Outcome State Fault Refusal :=
  .next (serve handleOutputClear r s)

/-- SET_TIME (R138), addressed or as the broadcast that is not answered (R154). -/
def execSetTime (broadcast : Bool) (r : Request) (s : State) : Host.Outcome State Fault Refusal :=
  if broadcast then
    if s.listening then .next (handleSetTime.takeBroadcast r s) else .next s
  else .next (serve handleSetTime r s)

/-- PUT_POINT (R2, R3). -/
def execPutPoint (r : Request) (s : State) : Host.Outcome State Fault Refusal :=
  .next (serve handlePutPoint r s)

/-- GET_POINT (R4). -/
def execGetPoint (r : Request) (s : State) : Host.Outcome State Fault Refusal :=
  .next (serve handleGetPoint r s)

/-- PUT_UNIT (R24, R25). -/
def execPutUnit (r : Request) (s : State) : Host.Outcome State Fault Refusal :=
  .next (serve handlePutUnit r s)

/-- GET_UNIT (R26). -/
def execGetUnit (r : Request) (s : State) : Host.Outcome State Fault Refusal :=
  .next (serve handleGetUnit r s)

/-- PUT_WINDOW (R37). -/
def execPutWindow (r : Request) (s : State) : Host.Outcome State Fault Refusal :=
  .next (serve handlePutWindow r s)

/-- GET_WINDOW (R38). -/
def execGetWindow (r : Request) (s : State) : Host.Outcome State Fault Refusal :=
  .next (serve handleGetWindow r s)

/-- PUT_PANEL (R78, R79). -/
def execPutPanel (r : Request) (s : State) : Host.Outcome State Fault Refusal :=
  .next (serve handlePutPanel r s)

/-- GET_PANEL (R80). -/
def execGetPanel (r : Request) (s : State) : Host.Outcome State Fault Refusal :=
  .next (serve handleGetPanel r s)

/-- PUT_GROUP (R63). -/
def execPutGroup (r : Request) (s : State) : Host.Outcome State Fault Refusal :=
  .next (serve handlePutGroup r s)

/-- GET_GROUP (R64). -/
def execGetGroup (r : Request) (s : State) : Host.Outcome State Fault Refusal :=
  .next (serve handleGetGroup r s)

/-- PUT_EQUATION (R105, R106). -/
def execPutEquation (r : Request) (s : State) : Host.Outcome State Fault Refusal :=
  .next (serve handlePutEquation r s)

/-- GET_EQUATION (R108). -/
def execGetEquation (r : Request) (s : State) : Host.Outcome State Fault Refusal :=
  .next (serve handleGetEquation r s)

/-- PUT_OUTPUT (R124). -/
def execPutOutput (r : Request) (s : State) : Host.Outcome State Fault Refusal :=
  .next (serve handlePutOutput r s)

/-- GET_OUTPUT (R125). -/
def execGetOutput (r : Request) (s : State) : Host.Outcome State Fault Refusal :=
  .next (serve handleGetOutput r s)

/-- PUT_SETTINGS (R163). -/
def execPutSettings (r : Request) (s : State) : Host.Outcome State Fault Refusal :=
  .next (serve handlePutSettings r s)

/-- GET_SETTINGS (R164). -/
def execGetSettings (r : Request) (s : State) : Host.Outcome State Fault Refusal :=
  .next (serve handleGetSettings r s)

/-- SAVE (R169). -/
def execSave (r : Request) (s : State) : Host.Outcome State Fault Refusal :=
  .next (serve handleSave r s)

/-- SET_SERVICE (R167). -/
def execSetService (r : Request) (s : State) : Host.Outcome State Fault Refusal :=
  .next (serve handleSetService r s)

/-- CLEAR_ALL (R172). -/
def execClearAll (r : Request) (s : State) : Host.Outcome State Fault Refusal :=
  .next (serve handleClearAll r s)

end Sys2Proof.Machine
end

