-- ==== Sys2Proof/Machine/PanelEvents.lean ====
section
/-! DEFINITION. The meanings of the panel events. -/
namespace Sys2Proof.Machine

/-- FRAME_CLOCK_PERIOD (R81). -/
def execFrameClockPeriod (s : State) : Host.Outcome State Fault Refusal :=
  if s.periodDue then .next (beginPeriod s) else .next s

/-- KEY_REPLY (R84): a reply outside the wait belongs to no exchange; one that is not good is a miss,
which KEY_REPLY_MISS takes at the end of the wait (log entry 6). -/
def execKeyReply (p : Fin 4) (bs : List Byte) (s : State) : Host.Outcome State Fault Refusal :=
  if s.waiting p && goodReply bs then .next (takeReply p bs s) else .next s

/-- KEY_REPLY_MISS (R84, R85). -/
def execKeyReplyMiss (p : Fin 4) (s : State) : Host.Outcome State Fault Refusal :=
  if s.waitOver p then .next (takeMiss p s) else .next s

/-- REQUESTED_TEST_EXPIRY (R96). -/
def execRequestedTestExpiry (p : Fin 4) (s : State) : Host.Outcome State Fault Refusal :=
  if s.testDue p then .next (s.modPan p fun r => { r with test := none }) else .next s

/-- CHIME_END (R99). -/
def execChimeEnd (p : Fin 4) (s : State) : Host.Outcome State Fault Refusal :=
  if s.chimeDue p then .next (s.modPan p fun r => { r with horn := .silent }) else .next s

end Sys2Proof.Machine
end

