-- ==== Sys2Proof/Machine/StoreEvents.lean ====
section
/-! DEFINITION. The meanings of the events of the store, the settle and the supply (10). -/
namespace Sys2Proof.Machine

/-- SAVE_SUCCESS (R169): the image read back good within 2 s of the request. -/
def execSaveSuccess (s : State) : Host.Outcome State Fault Refusal :=
  match s.store.job with
  | none => .next s
  | some j => if s.now ≤ j.start + Config.saveLimit then .next (saveDone j s) else .next s

/-- SAVE_FAILURE (R169): the read-back differs, or 2 s have passed. -/
def execSaveFailure (s : State) : Host.Outcome State Fault Refusal :=
  match s.store.job with
  | none => .next s
  | some j => .next (saveFailed j s)

/-- SETTLE_END (R170). -/
def execSettleEnd (s : State) : Host.Outcome State Fault Refusal :=
  if s.settleOver then .next (endSettle s) else .next s

/-- POWER_ON (R171). -/
def execPowerOn (s : State) : Host.Outcome State Fault Refusal := .next (powerOnStart s)

/-- RESET_LINE (R171). -/
def execResetLine (s : State) : Host.Outcome State Fault Refusal := .next (resetLineStart s)

end Sys2Proof.Machine
end

