-- ==== Sys2Proof/Machine/TripEvents.lean ====
section
/-! DEFINITION. The meanings of the events of equations, outputs and the hall clock. -/
namespace Sys2Proof.Machine

/-- The remaining delay of an equation in TIMING has reached 0 (R110). -/
def State.delayDue (s : State) (k : Fin 32) : Bool :=
  s.operating && s.eqn[k].state == .timing &&
    dueSince s.eqn[k].timing (s.cfg.equations[k].delay * Config.unitsPerMs) s.now

/-- DELAY_EXPIRY (R110, R112). -/
def execDelayExpiry (k : Fin 32) (s : State) : Host.Outcome State Fault Refusal :=
  if s.delayDue k then .next (logged (enterTripped handTrip k) s) else .next s

/-- The pulse timer of an output has run out (R128). -/
def State.pulseDue (s : State) (o : Fin 16) : Bool := Timer.dueOpt s.out[o].pulse s.now

/-- PULSE_EXPIRY (R128). -/
def execPulseExpiry (o : Fin 16) (s : State) : Host.Outcome State Fault Refusal :=
  if s.pulseDue o then .next (endPulse o s) else .next s

/-- The verify timer of an output has run out (R130). -/
def State.verifyDue (s : State) (o : Fin 16) : Bool := Timer.dueOpt s.out[o].verify s.now

/-- VERIFY_EXPIRY (R130). -/
def execVerifyExpiry (o : Fin 16) (s : State) : Host.Outcome State Fault Refusal :=
  if s.verifyDue o then .next (endVerify o s) else .next s

/-- READBACK_CHANGE (R130). -/
def execReadbackChange (o : Fin 16) (level : Bool) (s : State) : Host.Outcome State Fault Refusal :=
  .next (readbackLevel o level s)

/-- MINUTE_PULSE (R139). -/
def execMinutePulse (s : State) : Host.Outcome State Fault Refusal := .next (takePulse s)

/-- MINUTE_WATCH_EXPIRY (R143). -/
def execMinuteWatchExpiry (s : State) : Host.Outcome State Fault Refusal :=
  if s.watchDue then .next (freeClock .lapse s) else .next s

end Sys2Proof.Machine
end

