-- ==== Sys2Proof/Machine/Tick.lean ====
section
/-! DEFINITION. One clock unit of elapsed time, and the expiries that it brings due (R136; log entries 1
and 2). -/
namespace Sys2Proof.Machine

/-- The commands of those items of a table for which `due` holds, in ascending number. -/
def dueOf {n : Nat} (due : Fin n → Bool) (c : Fin n → Instr) : List Instr :=
  ((List.finRange n).filter due).map c

/-- One command where `due` holds. -/
def dueOne (due : Bool) (c : Instr) : List Instr := if due then [c] else []

/-- The expiries due now, in the order of the command table, each in ascending number (log entry 2). -/
def State.dueEvents (s : State) : List Instr :=
  dueOf (fun p => (s.debounceDue (fieldPoint p)).isSome) .debounceExpiry ++
  dueOne s.decayDue .chatterDecayExpiry ++
  dueOf (fun p => s.forceDue (fieldPoint p)) .forceExpiry ++
  dueOf s.settleDue .modeSettleExpiry ++
  dueOf s.groupDue .groupSettleExpiry ++
  dueOne s.periodDue .frameClockPeriod ++
  dueOf s.waitOver .keyReplyMiss ++
  dueOf s.testDue .requestedTestExpiry ++
  dueOf s.chimeDue .chimeEnd ++
  dueOf s.delayDue .delayExpiry ++
  dueOf s.pulseDue .pulseExpiry ++
  dueOf s.verifyDue .verifyExpiry ++
  dueOne s.watchDue .minuteWatchExpiry ++
  dueOne s.silenceHeard .interByteSilence ++
  dueOne s.silenceDue .silenceTimerExpiry ++
  dueOne (s.store.job.any fun j => j.start + Config.saveLimit ≤ s.now) .saveFailure ++
  dueOne s.settleOver .settleEnd

/-- One clock unit of elapsed time: the hall clock advances (R136). -/
def State.advance (s : State) : State :=
  { s with now := s.now + 1, clock := { s.clock with stamp := s.clock.stamp.tick } }

/-- A step on an empty queue: one clock unit passes, and the expiries it brings due are queued. -/
def tick (s : State) : State :=
  let s := s.advance
  { s with pending := s.dueEvents }

end Sys2Proof.Machine
end

