-- ==== Sys2Proof/Machine/Dispatch.lean ====
section
/-! DEFINITION. One arm per command. -/
namespace Sys2Proof.Machine

def exec (i : Instr) (s : State) : Host.Outcome State Fault Refusal :=
  match i with
  | .contactLevelChange point level => Sys2Proof.Machine.execContactLevelChange point level s
  | .debounceExpiry point => Sys2Proof.Machine.execDebounceExpiry point s
  | .chatterDecayExpiry => Sys2Proof.Machine.execChatterDecayExpiry s
  | .forceExpiry point => Sys2Proof.Machine.execForceExpiry point s
  | .modeSettleExpiry unit => Sys2Proof.Machine.execModeSettleExpiry unit s
  | .groupSettleExpiry group => Sys2Proof.Machine.execGroupSettleExpiry group s
  | .frameClockPeriod => Sys2Proof.Machine.execFrameClockPeriod s
  | .keyReply panel reply => Sys2Proof.Machine.execKeyReply panel reply s
  | .keyReplyMiss panel => Sys2Proof.Machine.execKeyReplyMiss panel s
  | .requestedTestExpiry panel => Sys2Proof.Machine.execRequestedTestExpiry panel s
  | .chimeEnd panel => Sys2Proof.Machine.execChimeEnd panel s
  | .delayExpiry equation => Sys2Proof.Machine.execDelayExpiry equation s
  | .pulseExpiry output => Sys2Proof.Machine.execPulseExpiry output s
  | .verifyExpiry output => Sys2Proof.Machine.execVerifyExpiry output s
  | .readbackChange output level => Sys2Proof.Machine.execReadbackChange output level s
  | .minutePulse => Sys2Proof.Machine.execMinutePulse s
  | .minuteWatchExpiry => Sys2Proof.Machine.execMinuteWatchExpiry s
  | .stationLinkByte byte => Sys2Proof.Machine.execStationLinkByte byte s
  | .interByteSilence => Sys2Proof.Machine.execInterByteSilence s
  | .frameDiscard frame => Sys2Proof.Machine.execFrameDiscard frame s
  | .unknownRequestKind kind r => Sys2Proof.Machine.execUnknownRequestKind kind r s
  | .replySent => Sys2Proof.Machine.execReplySent s
  | .silenceTimerExpiry => Sys2Proof.Machine.execSilenceTimerExpiry s
  | .readStatus r => Sys2Proof.Machine.execReadStatus r s
  | .readPoints r => Sys2Proof.Machine.execReadPoints r s
  | .readWindows r => Sys2Proof.Machine.execReadWindows r s
  | .readGroups r => Sys2Proof.Machine.execReadGroups r s
  | .readEquations r => Sys2Proof.Machine.execReadEquations r s
  | .readOutputs r => Sys2Proof.Machine.execReadOutputs r s
  | .readEvents r => Sys2Proof.Machine.execReadEvents r s
  | .readClock r => Sys2Proof.Machine.execReadClock r s
  | .ack r => Sys2Proof.Machine.execAck r s
  | .silence r => Sys2Proof.Machine.execSilence r s
  | .resetWindows r => Sys2Proof.Machine.execResetWindows r s
  | .resetGroups r => Sys2Proof.Machine.execResetGroups r s
  | .lampTest r => Sys2Proof.Machine.execLampTest r s
  | .brightness r => Sys2Proof.Machine.execBrightness r s
  | .tripReset r => Sys2Proof.Machine.execTripReset r s
  | .arm r => Sys2Proof.Machine.execArm r s
  | .force r => Sys2Proof.Machine.execForce r s
  | .unforce r => Sys2Proof.Machine.execUnforce r s
  | .clearNews r => Sys2Proof.Machine.execClearNews r s
  | .clearFaults r => Sys2Proof.Machine.execClearFaults r s
  | .outputSet r => Sys2Proof.Machine.execOutputSet r s
  | .outputClear r => Sys2Proof.Machine.execOutputClear r s
  | .setTime broadcast r => Sys2Proof.Machine.execSetTime broadcast r s
  | .putPoint r => Sys2Proof.Machine.execPutPoint r s
  | .getPoint r => Sys2Proof.Machine.execGetPoint r s
  | .putUnit r => Sys2Proof.Machine.execPutUnit r s
  | .getUnit r => Sys2Proof.Machine.execGetUnit r s
  | .putWindow r => Sys2Proof.Machine.execPutWindow r s
  | .getWindow r => Sys2Proof.Machine.execGetWindow r s
  | .putPanel r => Sys2Proof.Machine.execPutPanel r s
  | .getPanel r => Sys2Proof.Machine.execGetPanel r s
  | .putGroup r => Sys2Proof.Machine.execPutGroup r s
  | .getGroup r => Sys2Proof.Machine.execGetGroup r s
  | .putEquation r => Sys2Proof.Machine.execPutEquation r s
  | .getEquation r => Sys2Proof.Machine.execGetEquation r s
  | .putOutput r => Sys2Proof.Machine.execPutOutput r s
  | .getOutput r => Sys2Proof.Machine.execGetOutput r s
  | .putSettings r => Sys2Proof.Machine.execPutSettings r s
  | .getSettings r => Sys2Proof.Machine.execGetSettings r s
  | .save r => Sys2Proof.Machine.execSave r s
  | .saveSuccess => Sys2Proof.Machine.execSaveSuccess s
  | .saveFailure => Sys2Proof.Machine.execSaveFailure s
  | .setService r => Sys2Proof.Machine.execSetService r s
  | .clearAll r => Sys2Proof.Machine.execClearAll r s
  | .settleEnd => Sys2Proof.Machine.execSettleEnd s
  | .powerOn => Sys2Proof.Machine.execPowerOn s
  | .resetLine => Sys2Proof.Machine.execResetLine s

end Sys2Proof.Machine
end

