-- ==== Sys2Proof/Safety.lean ====
section
/-! DEFINITION. The laws that the manual states of the controller's state, and the conditions in which
its commands take effect, in which the statements are written. -/
namespace Sys2Proof.Machine

/-! ### The system points (R13) -/

/-- System point 256 + k stands as its owner's condition (R13). -/
def State.follows (s : State) (k : Fin 12) : Bool := s.pt[sysPoint k].qual.bit == s.sysCond k

/-- Every system point stands as its owner's condition (R13). -/
def State.systemLaw (s : State) : Prop := ∀ k : Fin 12, s.follows k = true

/-! ### The log (R146) -/

/-- Each record's sequence number is the one before plus 1, and the next number follows the newest. -/
def seqRise : List LogRecord → Word → Bool
  | [], _ => true
  | [r], next => r.seq + 1 == next
  | r :: r' :: rs, next => r.seq + 1 == r'.seq && seqRise (r' :: rs) next

/-- No two adjacent records are both GAP records. -/
def noGapPair : List LogRecord → Bool
  | r :: r' :: rs => !(r.body.isGap && r'.body.isGap) && noGapPair (r' :: rs)
  | _ => true

/-- The law of the log (R146), and that the 1024th record held is a GAP record (R147). -/
def EventLog.law (l : EventLog) : Prop :=
  l.recs.length ≤ 1024 ∧ l.recs.countP (fun r => !r.body.isGap) ≤ 1023 ∧
  (l.recs.length = 1024 → l.newestIsGap = true) ∧
  noGapPair l.recs = true ∧ seqRise l.recs l.next = true

/-- The log has room for `n` more records, none of which fills it (R147). -/
def State.room (s : State) (n : Nat) : Prop := s.log.recs.length + n ≤ 1023

/-! ### Horns and call sets (R97) -/

/-- A horn sounds a class cadence exactly when its call set is not empty, that of the highest class. -/
def State.hornLaw (s : State) : Prop :=
  ∀ p : Fin 4, match s.pan[p].horn with
    | .cadence c _ => s.pan[p].calls.highest = some c
    | .silent | .chime _ => s.pan[p].calls.highest = none

/-- Every class in a panel's call set is the class of a window in ALERT on its list. -/
def State.callLaw (s : State) : Prop :=
  ∀ p : Fin 4, ∀ c : WindowClass, s.pan[p].calls.has c = true → s.alertOn p c = true

/-! ### Windows (R42) and groups (section 4.3) -/

/-- A window is HELD only while a contributor is active, a SEQ-S window is QUIET or HELD, only SEQ-F
windows are in RETURN. -/
def State.windowLaw (s : State) : Prop :=
  ∀ w : Fin 192,
    (s.win[w] = .held → s.condition w = true) ∧
    (s.cfg.windows[w].seq = .seqS → s.win[w] = .quiet ∨ s.win[w] = .held) ∧
    (s.win[w] = .returned → s.cfg.windows[w].seq = .seqF)

/-- A set holds 0 to 4 points, is empty exactly when the group is ARMED, and has a stamp exactly when
it is not empty; the settle timer runs exactly in SETTLING. -/
def GroupRun.law (r : GroupRun) : Prop :=
  r.firstOut.length ≤ 4 ∧ (r.firstOut = [] ↔ r.state = .armed) ∧
  (r.stamp.isSome = true ↔ r.firstOut ≠ []) ∧ (r.timer.isSome = true ↔ r.state = .settling) ∧
  r.subsequent ≤ 255

def State.groupLaw (s : State) : Prop := ∀ g : Fin 16, s.grp[g].law

/-! ### Units (section 2.3) -/

/-- A unit is in CHANGEOVER only while its settle timer runs, and its settle time is then non-zero; no
decoded mode and no target is CHANGEOVER. -/
def State.changeoverLaw (s : State) : Prop :=
  ∀ u : Fin 9, s.un[u].decoded ≠ .changeover ∧ s.un[u].target ≠ some .changeover ∧
    (s.un[u].current = .changeover →
      s.cfg.units[u].settle ≠ 0 ∧ ∃ t : Nat, s.un[u].settle = some t ∧ t ≤ s.now)

/-- The units name as mode points only points of kind MODE and as block keys only points of kind KEY,
unit 0 names no mode point (R24), and the system points have kind SYSTEM (section 1.1). -/
def State.roleLaw (s : State) : Prop :=
  (∀ p : Fin 268, 256 ≤ p.val → s.cfg.points[p].kind = .system) ∧
  ∀ (u : Fin 9) (p : Fin 268),
    (s.cfg.units[u].run = some p ∨ s.cfg.units[u].pump = some p ∨ s.cfg.units[u].cond = some p →
      u ≠ 0 ∧ s.cfg.points[p].kind = .mode) ∧
    (s.cfg.units[u].key = some p → s.cfg.points[p].kind = .key)

/-- The decoded mode is that of the unit's mode points (R27). Out of CHANGEOVER the current mode is the
decoded mode, with no target and no settle timer (R28, R30); in CHANGEOVER the target is the decoded
mode (R29). -/
def State.modeLaw (s : State) : Prop :=
  ∀ u : Fin 9, s.un[u].decoded = s.decode u ∧
    if s.un[u].current = .changeover then s.un[u].target = some s.un[u].decoded
    else s.un[u].current = s.un[u].decoded ∧ s.un[u].target = none ∧ s.un[u].settle = none

/-! ### Points (R10, R12) and the Force Table (section 1.6) -/

/-- The score of a point lies in 0..255, and exceeds half the threshold, rounded down, while it is
CHATTERING; the threshold is 1 or more (section 1.1). -/
def chatterLawOf (c : PointConfig) (r : PointRun) : Prop :=
  1 ≤ c.threshold ∧ r.score ≤ 255 ∧ (r.chattering = true → c.threshold / 2 < r.score)

/-- The law of the chatter filter (R10), with what R1, R13 and R19 say of points that are not
qualified: they do not chatter; and the system points have kind SYSTEM (section 1.1). -/
def State.chatterLaw (s : State) : Prop :=
  ∀ p : Fin 268, chatterLawOf s.cfg.points[p] s.pt[p] ∧
    ((s.operating = false ∨ s.cfg.points[p].kind.qualified = false) → s.pt[p].chattering = false) ∧
    (256 ≤ p.val → s.cfg.points[p].kind = .system)

/-- What runs only while field points are qualified (R1, R8): the decay timer, and a debounce, which runs
on a point of a qualified kind. No settle runs in UNCONFIGURED (R170), and the system points alone are
of kind SYSTEM (section 1.1, R2). -/
def State.qualifierLaw (s : State) : Prop :=
  (s.service = .unconfigured → s.settle = none) ∧ (s.operating = false → s.decay = none) ∧
  ∀ p : Fin 268,
    (s.pt[p].debounce.isSome = true → s.operating = true ∧ s.cfg.points[p].kind.qualified = true) ∧
    (p.val < 256 → s.cfg.points[p].kind ≠ .system) ∧
    (256 ≤ p.val → s.cfg.points[p].kind = .system)

/-- Every active flag is set exactly while the three conditions of R12 hold: kind ALARM or SYSTEM;
effectively ABNORMAL, or CHATTERING and not forced; unit 0, a system point, or the unit's current mode in
the mask. -/
def State.activeLaw (s : State) : Prop :=
  ∀ p : Fin 268,
    let c := s.cfg.points[p]
    s.pt[p].active = true ↔
      (c.kind = .alarm ∨ c.kind = .system) ∧
      (s.effective p = .abnormal ∨ (∀ e ∈ s.forces, e.point ≠ p) ∧ s.pt[p].chattering = true) ∧
      (c.unit = 0 ∨ 256 ≤ p.val ∨ c.mask.getLsbD s.un[c.unit].current.code = true)

/-- The law of the Force Table: at most 8 entries, no two for one point, each for a point of kind ALARM
or STATUS. -/
def State.forceLaw (s : State) : Prop :=
  s.forces.length ≤ 8 ∧ (s.forces.map (·.point)).Nodup ∧
  ∀ e ∈ s.forces, s.cfg.points[e.point].kind = .alarm ∨ s.cfg.points[e.point].kind = .status

/-! ### Equations (R104) and outputs (R126, R127) -/

/-- The terms of a record name only equations lower than `k`. -/
def EquationRecord.ordered (e : EquationRecord) (k : Fin 32) : Prop :=
  e.a.below k = true ∧ e.b.below k = true

/-- The law of ordering, for active and pending records (R104). -/
def State.orderLaw (s : State) : Prop :=
  ∀ k : Fin 32, s.cfg.equations[k].ordered k ∧
    ∀ e : EquationRecord, s.eqn[k].staged = some e → e.ordered k

/-- The law of timing (R110) and the law of the following hold (R114): an equation in TIMING has a true
condition, an unblocked unit and a delay that began and has time left, or whose expiry waits to be taken;
an equation TRIPPED under FOLLOW has a true condition. At rest every equation is UNUSED (R123), and an
IDLE equation's unit is not blocked (R101). -/
def State.timingLaw (s : State) : Prop :=
  ∀ k : Fin 32,
    let e := s.cfg.equations[k]
    let r := s.eqn[k]
    (s.operating = false → r.state = .unused) ∧
    (r.state = .idle → s.un[e.unit].blocked = false) ∧
    (r.state = .timing → r.cond = true ∧ s.un[e.unit].blocked = false ∧
      ∃ b : Nat, r.timing = some b ∧ b ≤ s.now ∧
        (s.now < b + 10 * e.delay ∨ .delayExpiry k ∈ s.pending)) ∧
    (r.state = .tripped → e.hold = .follow → r.cond = true)

/-- Equation `k` is TRIPPED and its active record names output `o`. -/
def State.demands (s : State) (k : Fin 32) (o : Fin 16) : Bool :=
  s.eqn[k].state == .tripped && s.cfg.equations[k].outs.getLsbD o.val

/-- Some TRIPPED equation names the output, or its manual demand is set. -/
def State.wanted (s : State) (o : Fin 16) : Bool :=
  ((List.finRange 32).any fun k => s.demands k o) || s.out[o].manual

/-- The law of the outputs (R126, R127): an output's demanding equations are the TRIPPED equations that
name it; at rest nothing demands an output; a SUSTAINED output is energized exactly when the controller
operates and the output is wanted, and a PULSE output only while its pulse runs. -/
def State.outputLaw (s : State) : Prop :=
  (∀ (o : Fin 16) (k : Fin 32), s.out[o].demanding.getLsbD k.val = s.demands k o) ∧
  (s.operating = false →
    (∀ k : Fin 32, s.eqn[k].state = .unused) ∧ ∀ o : Fin 16, s.out[o].manual = false) ∧
  ∀ o : Fin 16, match s.cfg.outputs[o].kind with
    | .sustained => s.out[o].commanded = (s.operating && s.wanted o) ∧ s.out[o].pulse = none
    | .pulse => s.out[o].commanded = s.out[o].pulse.isSome

/-! ### The clock (R136) -/

/-- The day-time lies in 0..863,999,999. -/
def State.dayTimeLaw (s : State) : Prop := s.clock.stamp.dayTime ≤ 863999999

/-! ### Timers -/

/-- A timer that began at `start` runs and has run `d` clock units at `now`. -/
def ranOut (now : Nat) (start : Option Nat) (d : Nat) : Prop := ∃ b : Nat, start = some b ∧ b + d ≤ now

/-! ### Requests -/

/-- A request frame that comes now is taken, and no silence of the station line is to be ended. (A frame
that is whole while another is being collected is taken in its place: log entry 3.) -/
def State.hears (s : State) : Prop :=
  s.listening = true ∧ s.addressed = true ∧ s.link.silent = false

/-- The silence timer restarted by a valid frame (R162). -/
def State.heard (s : State) : State :=
  s.setLink { s.link with
    silence := if s.cfg.settings.silence = 0 then none else some s.now, silent := false }

/-- The reply in transmission carries a request kind, a selection, a result code and data (R155). -/
def State.repliesWith (s : State) (kind : Nat) (sel : Word) (code : ResultCode) (data : List Byte) :
    Prop :=
  s.link.receiver =
    .replying (frameOf s.link.station.toNat (kind + 128) sel (byteOf code.code :: data))

/-- A panel's call set has become `calls` at `now`, its horn following (R98): silent once the set is
empty, at the start of a cadence where the set was empty or its highest class changes, else as it was. -/
def PanelRun.called (r : PanelRun) (calls : ClassSet) (now : Nat) : PanelRun :=
  { r with
    calls := calls
    horn :=
      if r.calls.highest = calls.highest then r.horn
      else match calls.highest with
        | none => .silent
        | some c => .cadence c now }

/-- The record that a command writes at place `i` among its own: stored at time stamp `at_` with the
sequence number that place gives (R146). -/
def State.records (s t : State) (i : Nat) (at_ : TimeStamp) (b : RecordBody) : Prop :=
  t.log.recs[s.log.recs.length + i]? = some ⟨s.log.next + BitVec.ofNat 16 i, at_, b⟩

/-- A FORCE_OFF record. -/
def LogRecord.endsForce (x : LogRecord) : Bool :=
  match x.body with
  | .forceOff _ _ _ => true
  | _ => false

/-! ### What one change makes of the record it concerns -/

/-- A record held counts one or more losses: a GAP record with its number, its storage time and its first
lost time, whose count has not fallen (R147). -/
def LogRecord.countsOn (r r' : LogRecord) : Prop :=
  match r.body, r'.body with
  | .gap n f _, .gap n' f' _ =>
    r'.seq = r.seq ∧ r'.stamp = r.stamp ∧ f' = f ∧ min 65535 n ≤ n' ∧ (n ≤ 65535 → n' ≤ 65535)
  | _, _ => False

/-- The chatter check with a threshold (R10). -/
def PointRun.afterCheck (r : PointRun) (threshold : Nat) : PointRun :=
  if r.chattering then
    if r.score ≤ threshold / 2 then { r with chattering := false, suppressed := 0 } else r
  else { r with chattering := decide (threshold ≤ r.score) }

/-- A qualification transition to `level` with edge time `e` (R6, R9, R10): the check, then the suppressed
count. -/
def PointRun.afterTransition (r : PointRun) (c : PointConfig) (level : PointState) (e : TimeStamp) :
    PointRun :=
  let r' := { r with
    qual := level, lastEdge := e, debounce := none, score := min 255 (r.score + c.weight) }
  let r' := r'.afterCheck c.threshold
  if r.chattering then { r' with suppressed := min 65535 (r'.suppressed + 1) } else r'

/-- A point after an accepted PUT_POINT, its record `old` replaced by `c`, `level` being the mapped level
under `c` (R3 steps 2 to 5, R7); its active flag is not said here. -/
def PointRun.afterPut (r : PointRun) (old c : PointConfig) (operating : Bool) (level : PointState)
    (t : TimeStamp) (now : Nat) : PointRun :=
  let r :=
    if c.kind = .spare ∧ old.kind ≠ .spare then
      { r with qual := .normal, chattering := false, score := 0, suppressed := 0, debounce := none }
    else r
  if operating = false ∨ c.kind.qualified = false then r
  else
    let r :=
      if old.kind = .spare ∨ c.sense ≠ old.sense then
        { r with qual := level, debounce := none, lastEdge := t }
      else r
    let r := match r.debounce with
      | some d =>
        if c.debounce ≠ old.debounce ∧ d.start + 10 * c.debounce ≤ now then
          r.afterTransition c level d.edge
        else r
      | none => r
    if c.threshold = old.threshold then r else r.afterCheck c.threshold

/-- A unit whose decoded mode is formed again as `d` (R28, R29, R36). -/
def UnitRun.afterDecode (r : UnitRun) (d : Mode) (settle now : Nat) (operating : Bool) : UnitRun :=
  if r.decoded = d then r
  else if r.current = .changeover then { r with decoded := d, target := some d, settle := some now }
  else if r.current = d then { r with decoded := d }
  else if settle = 0 ∨ operating = false then { r with decoded := d, current := d }
  else { r with decoded := d, current := .changeover, target := some d, settle := some now }

/-- The commanded state of an output brought to `v` at `now`: a change starts the verify timer where the
readback is PRESENT (R130). -/
def OutputRun.driven (r : OutputRun) (c : OutputConfig) (v : Bool) (now : Nat) : OutputRun :=
  if r.commanded = v then r
  else { r with commanded := v, verify := if c.readback then some ⟨now, 10 * c.verify⟩ else none }

/-- An output whose demanding equations become `equations` and whose manual demand becomes `manual`: a rise
or a fall of its demand acts on a SUSTAINED output, a rise on a PULSE output whose pulse does not run
(R126 to R128). -/
def OutputRun.demandedBy (r : OutputRun) (c : OutputConfig) (operating : Bool) (equations : BitVec 32)
    (manual : Bool) (now : Nat) : OutputRun :=
  let before := r.demanding != 0#32 || r.manual
  let after := equations != 0#32 || manual
  let r := { r with demanding := equations, manual := manual }
  if operating = false ∨ before = after then r
  else match c.kind with
    | .sustained => r.driven c after now
    | .pulse =>
      if after = true ∧ r.pulse = none then
        { r with pulse := some ⟨now, 10 * c.width⟩ }.driven c true now
      else r

/-- An output after an accepted PUT_OUTPUT, its record `old` replaced by `c` (R124, R129). -/
def OutputRun.afterPut (r : OutputRun) (old c : OutputConfig) (operating : Bool) (now : Nat) :
    OutputRun :=
  let on := operating && (r.demanding != 0#32 || r.manual)
  let r :=
    if c.kind = old.kind then r
    else match c.kind with
      | .pulse => if on then { r with pulse := some ⟨now, 10 * c.width⟩ }.driven c true now else r
      | .sustained => { r with pulse := none }.driven c on now
  if c.readback = old.readback then r
  else { r with verify := if c.readback then some ⟨now, 10 * c.verify⟩ else none }

/-- The state an equation takes at its release (R115). -/
def EquationRecord.restsIn (e : EquationRecord) (blocked : Bool) : EquationState :=
  match e.after with
  | .disarm => .disarmed
  | .rearm => if blocked then .blocked else .idle

/-- An equation installed with the record `c` (R107). -/
def State.installed (s : State) (c : EquationRecord) : EquationRun :=
  let cond := condOf c.func (s.term c.a) (s.term c.b)
  { state :=
      if s.operating = false ∨ c.inUse = false then .unused
      else if cond then .disarmed
      else if s.un[c.unit].blocked then .blocked else .idle
    a := s.term c.a, b := s.term c.b, cond := cond, timing := none, cause := none, staged := none,
    overwrite := false }

/-! ### The windows' answers to ACK and RESET (R43 to R48) -/

/-- The state of a window after ACK, by its type, its state and its condition. -/
def ackedState (seq : SeqType) (x : WindowState) (cond : Bool) : WindowState :=
  match x, seq with
  | .alert, .seqF => if cond then .held else .returned
  | .alert, .seqA | .alert, .seqN => if cond then .held else .quiet
  | x, _ => x

/-- The state of a window after RESET. -/
def resetState (seq : SeqType) (x : WindowState) : WindowState :=
  match seq, x with
  | .seqF, .returned => .quiet
  | _, x => x

/-! ### The start values of the blocks (R171 step 3) -/

/-- In `t` every block has its start values, with the contact and readback levels of `s`, and the system
points have made their start-up arrivals: points (R19), units (R34), windows (R60), groups (R77), panels
(R100), equations (R122), outputs (R135), news, station number and silence timer (R165). -/
def State.started (s t : State) : Prop :=
  t.forces = [] ∧ t.decay = none ∧ t.systemLaw ∧
  (∀ p : Fin 256, t.pt[fieldPoint p] =
    { raw := s.pt[fieldPoint p].raw, qual := .normal, chattering := false, score := 0,
      suppressed := 0, lastEdge := t.clock.stamp, debounce := none, active := false }) ∧
  (∀ u : Fin 9,
    let m : Mode :=
      if u = 0 then .common else if t.cfg.units[u].run = none then .generate else .stopped
    t.un[u] = { decoded := m, current := m, target := none, settle := none, blocked := false }) ∧
  (∀ w : Fin 192, t.win[w] =
    if t.condition w then if t.cfg.windows[w].seq = .seqS then .held else .alert else .quiet) ∧
  (∀ g : Fin 16, t.grp[g] =
    { state := .armed, firstOut := [], stamp := none, subsequent := 0, overfull := false,
      timer := none }) ∧
  t.frameClock = ⟨0, false, t.now⟩ ∧
  (∀ p : Fin 4, (∀ c : WindowClass, t.pan[p].calls.has c = t.alertOn p c) ∧
    { t.pan[p] with lastFrame := none, fascia := none } =
      { link := if t.cfg.panels[p].enabled then .starting else .disabled, misses := 0, seen := none,
        keys := 0, brightness := t.cfg.panels[p].brightness, calls := t.pan[p].calls,
        horn := match t.pan[p].calls.highest with
          | none => .silent
          | some c => .cadence c t.now
        keyTest := false, test := none, exchange := none, lostFor := 0, lastFrame := none,
        fascia := none }) ∧
  (∀ k : Fin 32,
    let e := t.cfg.equations[k]
    t.eqn[k] =
      { state := .unused, a := t.term e.a, b := t.term e.b,
        cond := condOf e.func (t.term e.a) (t.term e.b), timing := none, cause := none,
        staged := none, overwrite := false }) ∧
  (∀ o : Fin 16,
    let c := t.cfg.outputs[o]
    t.out[o] =
      { demanding := 0, manual := false, commanded := false, pulse := none
        verify := if c.readback then some ⟨t.now, 10 * c.verify⟩ else none
        readback := s.out[o].readback, fault := false }) ∧
  (∀ u : Fin 9, t.news[u] =
    ⟨u == 0 && (List.finRange 192).any fun w => t.win[w] == .alert, false, false, false⟩) ∧
  t.link.straps = s.link.straps ∧ t.link.station = s.link.straps ∧ t.link.silent = false ∧
  t.link.silence = (if t.cfg.settings.silence = 0 then none else some t.now)

/-! ### The image (R168) -/

/-- The record of a system point: its window and group are its own, its other fields are fixed (01 section
1.1). -/
def systemRecord (window : Option (Fin 192)) (group : Option (Fin 16)) : PointConfig :=
  { kind := .system, unit := 0, sense := .alarmOnClosed, debounce := 0, weight := 0, threshold := 255,
    mask := 31#5, window := window, group := group, logging := true }

/-- Every field of every record lies in its range, the fixed fields of the system points and of unit 0 at
their fixed values (log entry 28). -/
def Tables.inRanges (c : Tables) : Prop :=
  (∀ p : Fin 256,
    let x := c.points[fieldPoint p]
    x.kind ≠ .system ∧ x.debounce ≤ 255 ∧ x.weight ≤ 63 ∧ 1 ≤ x.threshold ∧ x.threshold ≤ 255) ∧
  (∀ k : Fin 12,
    c.points[sysPoint k] = systemRecord c.points[sysPoint k].window c.points[sysPoint k].group) ∧
  (∀ u : Fin 9, c.units[u].settle ≤ 600) ∧
  (c.units[(0 : Fin 9)].run = none ∧ c.units[(0 : Fin 9)].pump = none ∧
    c.units[(0 : Fin 9)].cond = none ∧ c.units[(0 : Fin 9)].settle = 0) ∧
  (∀ p : Fin 4, c.panels[p].positions.length ≤ 64 ∧ 1 ≤ c.panels[p].brightness ∧
    c.panels[p].brightness ≤ 8) ∧
  (∀ g : Fin 16, c.groups[g].resolve ≤ 255) ∧ (∀ k : Fin 32, c.equations[k].delay ≤ 60000) ∧
  (∀ o : Fin 16,
    let x := c.outputs[o]
    10 ≤ x.width ∧ x.width ≤ 5000 ∧ x.width % 10 = 0 ∧ 5 ≤ x.verify ∧ x.verify ≤ 250) ∧
  let x := c.settings
  100 ≤ x.decay ∧ x.decay ≤ 10000 ∧ x.decay % 100 = 0 ∧ x.silence ≤ 255 ∧ x.syncWindow ≤ 5000

/-- The laws of the configured tables: no term names an equation not lower than its own, no window has more
than eight contributors, none stands twice on one panel, and every mode point and block key that a unit names
has its kind. -/
def Tables.keepsLaws (c : Tables) : Prop :=
  (∀ k j : Fin 32, c.equations[k].a = .equation j ∨ c.equations[k].b = .equation j → j < k) ∧
  (∀ (w : Fin 192) (ps : List (Fin 268)), ps.Nodup →
    (∀ p ∈ ps, (c.points[p].kind = .alarm ∨ c.points[p].kind = .system) ∧
      c.points[p].window = some w) → ps.length ≤ 8) ∧
  (∀ p : Fin 4, c.panels[p].positions.Nodup) ∧
  ∀ (u : Fin 9) (p : Fin 268),
    (c.units[u].run = some p ∨ c.units[u].pump = some p ∨ c.units[u].cond = some p →
      c.points[p].kind = .mode) ∧
    (c.units[u].key = some p → c.points[p].kind = .key)

/-- Every record at its default (R168, and the tables of the chapters that own the records). -/
def Tables.atDefaults (c : Tables) : Prop :=
  (∀ p : Fin 256, c.points[fieldPoint p] =
    { kind := .spare, unit := 0, sense := .alarmOnClosed, debounce := 10, weight := 0,
      threshold := 255, mask := 31#5, window := none, group := none, logging := true }) ∧
  (∀ k : Fin 12, c.points[sysPoint k] = systemRecord none none) ∧
  (∀ u : Fin 9, c.units[u] = { run := none, pump := none, cond := none, settle := 0, key := none }) ∧
  (∀ w : Fin 192, c.windows[w] = { seq := .seqF, cls := .c4, colour := .white, ringback := false }) ∧
  (∀ p : Fin 4, c.panels[p] = { enabled := false, positions := [], brightness := 8 }) ∧
  (∀ g : Fin 16, c.groups[g] = { resolve := 0, home := none }) ∧
  (∀ k : Fin 32, c.equations[k] =
    { inUse := false, unit := 0, a := .const false, b := .const false, func := 0, delay := 0,
      outs := 0#16, hold := .latch, after := .rearm }) ∧
  (∀ o : Fin 16, c.outputs[o] =
    { kind := .sustained, width := 500, verify := 50, readback := false, unit := 0 }) ∧
  c.settings =
    { decay := 1000, speed := .b19200, silence := 0, minutePulse := false, syncWindow := 1000,
      clearMode := .clearOnRead, enables := ⟨false, false, false, false, false⟩ }

/-! ### The fields of replies and records (11) -/

/-- Bit `k` of the byte at offset `i`. -/
def bitAt (b : List Byte) (i k : Nat) : Bool := (b.getD i 0#8).getLsbD k

/-- A time stamp stands at offset `i`: the day in two bytes, the day-time in four (11 section 11.1). -/
def holdsTime (b : List Byte) (i : Nat) (t : TimeStamp) : Prop :=
  rd16 b i = t.day.toNat ∧ rd32 b (i + 2) = t.dayTime % 4294967296

/-- Clock units left at `now` of a timer started at `start` with duration `dur`, in whole units of `unit`
clock units, rounded up; 0 where it does not run. -/
def remaining (now unit : Nat) (start : Option Nat) (dur : Nat) : Nat :=
  match start with
  | none => 0
  | some b => (b + dur - now + (unit - 1)) / unit

/-- As `remaining`, of a timer with its own duration, in whole ms. -/
def remainingMs (now : Nat) (timer : Option Timer) : Nat :=
  match timer with
  | none => 0
  | some x => remaining now 10 (some x.start) x.dur

/-! ### The records that PUT requests write -/

/-- Field `k` of a record: as the request gives it where the mask selects it, else as it stands (R159). -/
def putField (mask k : Nat) (given stands : Prop) : Prop := if mask.testBit k then given else stands

/-- `c` is the candidate record of a PUT_POINT body on point `p`, every selected field in its range (R2,
11 section 11.3). -/
def PointPut (p : Fin 268) (old : PointConfig) (b : List Byte) (c : PointConfig) : Prop :=
  let m := rd16 b 2
  m < 1024 ∧ putField m 0 (c.kind.code = rd8 b 4) (c.kind = old.kind) ∧
  putField m 1 (c.unit.val = rd8 b 5) (c.unit = old.unit) ∧
  putField m 2 (c.sense.code = rd8 b 6) (c.sense = old.sense) ∧
  putField m 3 (c.debounce = rd8 b 7) (c.debounce = old.debounce) ∧
  putField m 4 (c.weight = rd8 b 8 ∧ c.weight ≤ 63) (c.weight = old.weight) ∧
  putField m 5 (c.threshold = rd8 b 9 ∧ 1 ≤ c.threshold) (c.threshold = old.threshold) ∧
  putField m 6 (c.mask.toNat = rd8 b 10) (c.mask = old.mask) ∧
  putField m 7 (optCode c.window = rd8 b 11) (c.window = old.window) ∧
  putField m 8 (optCode c.group = rd8 b 12) (c.group = old.group) ∧
  putField m 9 (c.logging.toNat = rd8 b 13) (c.logging = old.logging) ∧
  (p.val < 256 → c.kind ≠ .system) ∧ (256 ≤ p.val → c.logging = true)

/-- The checks of R2 that refuse CONFLICT: a fixed field of a system point selected; a STATUS, MODE or
KEY point with a window or a group; a point named in a role of a unit and of another kind. -/
def pointConflict (t : Tables) (p : Fin 268) (mask : Nat) (c : PointConfig) : Prop :=
  256 ≤ p.val ∧ mask % 128 ≠ 0 ∨
  (c.kind = .status ∨ c.kind = .mode ∨ c.kind = .key) ∧ (c.window ≠ none ∨ c.group ≠ none) ∨
  (∃ u : Fin 9, t.units[u].run = some p ∨ t.units[u].pump = some p ∨ t.units[u].cond = some p) ∧
    c.kind ≠ .mode ∨
  (∃ u : Fin 9, t.units[u].key = some p) ∧ c.kind ≠ .key

/-- The kinds that contribute to a window (R39). -/
def PointConfig.feeds (c : PointConfig) (w : Fin 192) : Prop :=
  (c.kind = .alarm ∨ c.kind = .system) ∧ c.window = some w

/-- The check of R2 that refuses FULL: the point would be a ninth contributor of its window. -/
def windowFull (t : Tables) (p : Fin 268) (c : PointConfig) : Prop :=
  ∃ w : Fin 192, c.feeds w ∧ ¬ t.points[p].feeds w ∧
    ∃ ps : List (Fin 268), ps.Nodup ∧ ps.length = 8 ∧ ∀ q ∈ ps, t.points[q].feeds w

/-- `c` is the candidate record of a PUT_UNIT body (R24). -/
def UnitPut (old : UnitConfig) (b : List Byte) (c : UnitConfig) : Prop :=
  let m := rd8 b 1
  m < 32 ∧ putField m 0 (pointCode c.run = rd16 b 2) (c.run = old.run) ∧
  putField m 1 (pointCode c.pump = rd16 b 4) (c.pump = old.pump) ∧
  putField m 2 (pointCode c.cond = rd16 b 6) (c.cond = old.cond) ∧
  putField m 3 (c.settle = rd16 b 8 ∧ c.settle ≤ 600) (c.settle = old.settle) ∧
  putField m 4 (pointCode c.key = rd16 b 10) (c.key = old.key)

/-- The checks of R24: a field that unit 0 has not; a selected role whose point is of another kind. -/
def unitAtOdds (t : Tables) (u : Fin 9) (mask : Nat) (c : UnitConfig) : Prop :=
  u = 0 ∧ mask % 16 ≠ 0 ∨
  (∃ p : Fin 268, t.points[p].kind ≠ .mode ∧
    (mask.testBit 0 = true ∧ c.run = some p ∨ mask.testBit 1 = true ∧ c.pump = some p ∨
      mask.testBit 2 = true ∧ c.cond = some p)) ∨
  ∃ p : Fin 268, t.points[p].kind ≠ .key ∧ mask.testBit 4 = true ∧ c.key = some p

/-- `c` is the candidate record of a PUT_WINDOW body (R37). -/
def WindowPut (old : WindowConfig) (b : List Byte) (c : WindowConfig) : Prop :=
  let m := rd8 b 1
  m < 16 ∧ putField m 0 (c.seq.code = rd8 b 2) (c.seq = old.seq) ∧
  putField m 1 (c.cls.code = rd8 b 3) (c.cls = old.cls) ∧
  putField m 2 (c.colour.code = rd8 b 4) (c.colour = old.colour) ∧
  putField m 3 (c.ringback.toNat = rd8 b 5) (c.ringback = old.ringback)

/-- `c` is the record of a PUT_PANEL body, its brightness as clamped (R78, R174). -/
def PanelPut (b : List Byte) (c : PanelConfig) : Prop :=
  c.enabled.toNat = rd8 b 1 ∧
  c.brightness = (if rd8 b 2 = 0 then 1 else min (rd8 b 2) 8) ∧
  rd8 b 3 = b.length - 4 ∧ c.positions.map Fin.val = (b.drop 4).map BitVec.toNat

/-- `c` is the candidate record of a PUT_GROUP body (R63). -/
def GroupPut (old : GroupConfig) (b : List Byte) (c : GroupConfig) : Prop :=
  let m := rd8 b 1
  m < 4 ∧ putField m 0 (c.resolve = rd8 b 2) (c.resolve = old.resolve) ∧
  putField m 1 (panelCode c.home = rd8 b 3) (c.home = old.home)

/-- `x` is the term at an offset of a body; what its kind does not use is not read (R102, R174). -/
def TermPut (b : List Byte) (i : Nat) (x : Term) : Prop :=
  match x with
  | .const v => rd8 b i = 0 ∧ rd16 b (i + 1) = v.toNat
  | .point p => rd8 b i = 1 ∧ rd16 b (i + 1) = p.val
  | .equation k => rd8 b i = 2 ∧ rd16 b (i + 1) = k.val
  | .mode u m => rd8 b i = 3 ∧ rd16 b (i + 1) = u.val ∧ rd8 b (i + 3) = m.code

/-- `c` is the record of a PUT_EQUATION body (R105). -/
def EquationPut (b : List Byte) (c : EquationRecord) : Prop :=
  c.inUse.toNat = rd8 b 1 ∧ c.unit.val = rd8 b 2 ∧ TermPut b 3 c.a ∧ TermPut b 7 c.b ∧
  c.func.val = rd8 b 11 ∧ c.delay = rd16 b 12 ∧ c.delay ≤ 60000 ∧ c.outs.toNat = rd16 b 14 ∧
  c.hold.code = rd8 b 16 ∧ c.after.code = rd8 b 17

/-- `c` is the candidate record of a PUT_OUTPUT body (R124). -/
def OutputPut (old : OutputConfig) (b : List Byte) (c : OutputConfig) : Prop :=
  let m := rd8 b 1
  m < 32 ∧ putField m 0 (c.kind.code = rd8 b 2) (c.kind = old.kind) ∧
  putField m 1 (c.width = rd16 b 3 ∧ 10 ≤ c.width ∧ c.width ≤ 5000 ∧ c.width % 10 = 0)
    (c.width = old.width) ∧
  putField m 2 (c.verify = rd8 b 5 ∧ 5 ≤ c.verify ∧ c.verify ≤ 250) (c.verify = old.verify) ∧
  putField m 3 (c.readback.toNat = rd8 b 6) (c.readback = old.readback) ∧
  putField m 4 (c.unit.val = rd8 b 7) (c.unit = old.unit)

/-- `c` is the candidate record of a PUT_SETTINGS body (R163). -/
def SettingsPut (old : Settings) (b : List Byte) (c : Settings) : Prop :=
  let m := rd8 b 0
  m < 128 ∧
  putField m 0 (c.decay = rd16 b 1 ∧ 100 ≤ c.decay ∧ c.decay ≤ 10000 ∧ c.decay % 100 = 0)
    (c.decay = old.decay) ∧
  putField m 1 (c.speed.code = rd8 b 3) (c.speed = old.speed) ∧
  putField m 2 (c.silence = rd8 b 4) (c.silence = old.silence) ∧
  putField m 3 (c.minutePulse.toNat = rd8 b 5) (c.minutePulse = old.minutePulse) ∧
  putField m 4 (c.syncWindow = rd16 b 6 ∧ c.syncWindow ≤ 5000) (c.syncWindow = old.syncWindow) ∧
  putField m 5 (c.clearMode.code = rd8 b 8) (c.clearMode = old.clearMode) ∧
  putField m 6 (c.enables.nat = rd8 b 9) (c.enables = old.enables)

end Sys2Proof.Machine

namespace Sys2Proof

open Sys2Proof.Machine

/-! ### What a command can change, for the frame statements -/

/-- The request that a command carries to this station, and its owner. -/
def Instr.request : Instr → Option (Handler × Request)
  | .readStatus r => some (handleReadStatus, r)
  | .readPoints r => some (handleReadPoints, r)
  | .readWindows r => some (handleReadWindows, r)
  | .readGroups r => some (handleReadGroups, r)
  | .readEquations r => some (handleReadEquations, r)
  | .readOutputs r => some (handleReadOutputs, r)
  | .readEvents r => some (handleReadEvents, r)
  | .readClock r => some (handleReadClock, r)
  | .ack r => some (handleAck, r)
  | .silence r => some (handleSilence, r)
  | .resetWindows r => some (handleResetWindows, r)
  | .resetGroups r => some (handleResetGroups, r)
  | .lampTest r => some (handleLampTest, r)
  | .brightness r => some (handleBrightness, r)
  | .tripReset r => some (handleTripReset, r)
  | .arm r => some (handleArm, r)
  | .force r => some (handleForce, r)
  | .unforce r => some (handleUnforce, r)
  | .clearNews r => some (handleClearNews, r)
  | .clearFaults r => some (handleClearFaults, r)
  | .outputSet r => some (handleOutputSet, r)
  | .outputClear r => some (handleOutputClear, r)
  | .setTime false r => some (handleSetTime, r)
  | .putPoint r => some (handlePutPoint, r)
  | .getPoint r => some (handleGetPoint, r)
  | .putUnit r => some (handlePutUnit, r)
  | .getUnit r => some (handleGetUnit, r)
  | .putWindow r => some (handlePutWindow, r)
  | .getWindow r => some (handleGetWindow, r)
  | .putPanel r => some (handlePutPanel, r)
  | .getPanel r => some (handleGetPanel, r)
  | .putGroup r => some (handlePutGroup, r)
  | .getGroup r => some (handleGetGroup, r)
  | .putEquation r => some (handlePutEquation, r)
  | .getEquation r => some (handleGetEquation, r)
  | .putOutput r => some (handlePutOutput, r)
  | .getOutput r => some (handleGetOutput, r)
  | .putSettings r => some (handlePutSettings, r)
  | .getSettings r => some (handleGetSettings, r)
  | .save r => some (handleSave, r)
  | .setService r => some (handleSetService, r)
  | .clearAll r => some (handleClearAll, r)
  | .contactLevelChange _ _ | .debounceExpiry _ | .chatterDecayExpiry | .forceExpiry _
  | .modeSettleExpiry _ | .groupSettleExpiry _ | .frameClockPeriod | .keyReply _ _
  | .keyReplyMiss _ | .requestedTestExpiry _ | .chimeEnd _ | .delayExpiry _ | .pulseExpiry _
  | .verifyExpiry _ | .readbackChange _ _ | .minutePulse | .minuteWatchExpiry
  | .stationLinkByte _ | .interByteSilence | .frameDiscard _ | .unknownRequestKind _ _
  | .replySent | .silenceTimerExpiry | .setTime true _ | .saveSuccess | .saveFailure
  | .settleEnd | .powerOn | .resetLine => none

/-- The service states in which a request is permitted (R156 check 4, R166). -/
inductive Permit where
  /-- In each, and during a settle. -/
  | always
  /-- In each, but not during a settle. -/
  | unsettled
  /-- In COMMISSIONING and IN_SERVICE, but not during a settle. -/
  | operating
  /-- In COMMISSIONING, but not during a settle. -/
  | commissioning
  deriving DecidableEq, Repr

def Permit.holds (x : Permit) (s : State) : Prop :=
  match x with
  | .always => True
  | .unsettled => s.settle = none
  | .operating => s.service ≠ .unconfigured ∧ s.settle = none
  | .commissioning => s.service = .commissioning ∧ s.settle = none

/-- What R156 asks of a request before its owner sees it: its kind code and the shortest and the longest body
(11 section 11.2), and the states that permit it. -/
structure Asked where
  kind     : Nat
  shortest : Nat
  longest  : Nat
  permit   : Permit
  deriving DecidableEq, Repr

/-- The table of 11 section 11.2, with R156 check 4 and R166. -/
def Instr.asked : Instr → Option Asked
  | .readStatus _ => some ⟨0x01, 0, 0, .always⟩
  | .readPoints _ => some ⟨0x02, 3, 3, .always⟩
  | .readWindows _ => some ⟨0x03, 2, 2, .always⟩
  | .readGroups _ => some ⟨0x04, 2, 2, .always⟩
  | .readEquations _ => some ⟨0x05, 2, 2, .always⟩
  | .readOutputs _ => some ⟨0x06, 0, 0, .always⟩
  | .readEvents _ => some ⟨0x07, 1, 1, .always⟩
  | .readClock _ => some ⟨0x08, 0, 0, .always⟩
  | .ack _ => some ⟨0x10, 2, 2, .unsettled⟩
  | .silence _ => some ⟨0x11, 1, 1, .unsettled⟩
  | .resetWindows _ => some ⟨0x12, 2, 2, .unsettled⟩
  | .resetGroups _ => some ⟨0x13, 2, 2, .unsettled⟩
  | .lampTest _ => some ⟨0x14, 4, 4, .unsettled⟩
  | .brightness _ => some ⟨0x15, 2, 2, .unsettled⟩
  | .tripReset _ => some ⟨0x20, 1, 1, .operating⟩
  | .arm _ => some ⟨0x21, 1, 1, .operating⟩
  | .force _ => some ⟨0x22, 5, 5, .operating⟩
  | .unforce _ => some ⟨0x23, 2, 2, .unsettled⟩
  | .clearNews _ => some ⟨0x24, 1, 1, .unsettled⟩
  | .clearFaults _ => some ⟨0x25, 2, 2, .unsettled⟩
  | .outputSet _ => some ⟨0x26, 2, 2, .commissioning⟩
  | .outputClear _ => some ⟨0x27, 2, 2, .commissioning⟩
  | .setTime false _ => some ⟨0x28, 6, 6, .always⟩
  | .putPoint _ => some ⟨0x30, 14, 14, .always⟩
  | .getPoint _ => some ⟨0x31, 2, 2, .always⟩
  | .putUnit _ => some ⟨0x32, 12, 12, .always⟩
  | .getUnit _ => some ⟨0x33, 1, 1, .always⟩
  | .putWindow _ => some ⟨0x34, 6, 6, .always⟩
  | .getWindow _ => some ⟨0x35, 1, 1, .always⟩
  | .putPanel _ => some ⟨0x36, 4, 68, .always⟩
  | .getPanel _ => some ⟨0x37, 1, 1, .always⟩
  | .putGroup _ => some ⟨0x38, 4, 4, .always⟩
  | .getGroup _ => some ⟨0x39, 1, 1, .always⟩
  | .putEquation _ => some ⟨0x3A, 18, 18, .always⟩
  | .getEquation _ => some ⟨0x3B, 1, 1, .always⟩
  | .putOutput _ => some ⟨0x3C, 8, 8, .always⟩
  | .getOutput _ => some ⟨0x3D, 1, 1, .always⟩
  | .putSettings _ => some ⟨0x3E, 10, 10, .always⟩
  | .getSettings _ => some ⟨0x3F, 0, 0, .always⟩
  | .save _ => some ⟨0x40, 0, 0, .unsettled⟩
  | .setService _ => some ⟨0x41, 1, 1, .unsettled⟩
  | .clearAll _ => some ⟨0x42, 0, 0, .commissioning⟩
  | .contactLevelChange _ _ | .debounceExpiry _ | .chatterDecayExpiry | .forceExpiry _
  | .modeSettleExpiry _ | .groupSettleExpiry _ | .frameClockPeriod | .keyReply _ _
  | .keyReplyMiss _ | .requestedTestExpiry _ | .chimeEnd _ | .delayExpiry _ | .pulseExpiry _
  | .verifyExpiry _ | .readbackChange _ _ | .minutePulse | .minuteWatchExpiry
  | .stationLinkByte _ | .interByteSilence | .frameDiscard _ | .unknownRequestKind _ _
  | .replySent | .silenceTimerExpiry | .setTime true _ | .saveSuccess | .saveFailure
  | .settleEnd | .powerOn | .resetLine => none

/-- The starts, and the byte that may complete any request. -/
def Instr.starts : Instr → Bool
  | .clearAll _ | .powerOn | .resetLine | .stationLinkByte _ => true
  | _ => false

/-- The command may change the hall clock (R136, R137). -/
def Instr.setsClock : Instr → Bool
  | .minutePulse | .minuteWatchExpiry | .setTime _ _ | .putSettings _ | .powerOn
  | .stationLinkByte _ => true
  | _ => false

/-- The PUT requests (R159). -/
def Instr.puts : Instr → Bool
  | .putPoint _ | .putUnit _ | .putWindow _ | .putPanel _ | .putGroup _ | .putEquation _
  | .putOutput _ | .putSettings _ => true
  | _ => false

/-- The command may change the Configuration Store (10 section 10.2). -/
def Instr.setsStore : Instr → Bool
  | .save _ | .saveSuccess | .saveFailure | .powerOn | .resetLine | .stationLinkByte _ => true
  | c => c.puts

/-- The command may change the service state or the settle (10 sections 10.1 and 10.3). -/
def Instr.setsService : Instr → Bool
  | .setService _ | .settleEnd => true
  | c => c.starts

/-- The command may draw a free value (log entries 8, 9 and 10). -/
def Instr.drawsFree : Instr → Bool
  | .frameClockPeriod | .saveFailure | .powerOn | .resetLine | .stationLinkByte _ => true
  | _ => false

/-- The command may change the Link Interface. -/
def Instr.setsLink (c : Instr) : Bool :=
  c.request.isSome || c.starts || match c with
    | .interByteSilence | .frameDiscard _ | .unknownRequestKind _ _ | .replySent
    | .silenceTimerExpiry | .setTime true _ => true
    | _ => false

/-- The command may change the Force Table (R15, R17). -/
def Instr.setsForces : Instr → Bool
  | .force _ | .unforce _ | .forceExpiry _ | .putPoint _ | .setService _ => true
  | c => c.starts

/-- The command may change the qualification of field points. -/
def Instr.setsPoints : Instr → Bool
  | .contactLevelChange _ _ | .debounceExpiry _ | .chatterDecayExpiry | .putPoint _
  | .setService _ | .settleEnd => true
  | c => c.starts

/-- The command may change the decay timer (R8). -/
def Instr.setsDecay : Instr → Bool
  | .chatterDecayExpiry | .putSettings _ | .setService _ | .settleEnd => true
  | c => c.starts

/-- The command may change the units. -/
def Instr.setsUnits : Instr → Bool
  | .contactLevelChange _ _ | .debounceExpiry _ | .forceExpiry _ | .modeSettleExpiry _
  | .force _ | .unforce _ | .putPoint _ | .putUnit _ | .setService _ | .settleEnd => true
  | c => c.starts

/-- The command may change the panels but for call sets and horns. -/
def Instr.setsPanels : Instr → Bool
  | .frameClockPeriod | .keyReply _ _ | .keyReplyMiss _ | .requestedTestExpiry _ | .lampTest _
  | .brightness _ | .putPanel _ | .setService _ => true
  | c => c.starts

/-- The command may change a manual demand (R133, R134). -/
def Instr.setsManual : Instr → Bool
  | .outputSet _ | .outputClear _ | .setService _ => true
  | c => c.starts

/-- The command may change an output fault flag (R131, R132, R134). -/
def Instr.setsFaults : Instr → Bool
  | .verifyExpiry _ | .readbackChange _ _ | .clearFaults _ | .setService _ => true
  | c => c.starts

/-- The command may remove records from the log (R151). -/
def Instr.removesRecords : Instr → Bool
  | .readEvents _ => true
  | c => c.starts

/-- The command may clear news flags (R160, R165). -/
def Instr.clearsNews : Instr → Bool
  | .readStatus _ | .clearNews _ => true
  | c => c.starts

end Sys2Proof
end

