-- ==== Sys2Proof/Certificates/Slice0/Obligations.lean ====
section
/-! DEFINITION. The statements for the provers: the step, what each command leaves, the laws that every
step keeps, and what each command does. -/

open Sys2Proof Sys2Proof.Machine

/-! ### The step -/

/-- A step on a queue that is not empty runs the command at its front on the state with the rest. -/
def Obligations.QueueFrontRuns : Prop :=
  ∀ (c : Instr) (rest : List Instr) (s : State), s.pending = c :: rest →
    step s = exec c { s with pending := rest }

/-- On an empty queue one clock unit passes: the hall clock advances as R136 says, the expiries that
are due are queued, in the order of the command table, and nothing else changes. The expiry of each of
the seventeen timers of the manual is queued exactly where that timer has run its time. (That time passes
on an empty queue is log entry 1, the order log entry 2, the first period of the frame clock log
entry 7.) -/
def Obligations.EmptyQueuePassesOneClockUnit : Prop :=
  ∀ s : State, s.pending = [] →
    ∃ t : State, step s = .next t ∧
      t.now = s.now + 1 ∧
      t.clock.stamp =
        (if s.clock.stamp.dayTime + 1 < 864000000 then ⟨s.clock.stamp.day, s.clock.stamp.dayTime + 1⟩
         else ⟨s.clock.stamp.day + 1, 0⟩) ∧
      { t with now := s.now, pending := [], clock := { t.clock with stamp := s.clock.stamp } } = s ∧
      t.pending = t.dueEvents ∧
      let since (start : Option Nat) (d : Nat) : Prop := ∃ b : Nat, start = some b ∧ b + d ≤ t.now
      let out (timer : Option Timer) : Prop :=
        ∃ x : Timer, timer = some x ∧ x.start + x.dur ≤ t.now
      (∀ p : Fin 256, .debounceExpiry p ∈ t.pending ↔
        since (t.pt[fieldPoint p].debounce.map Debounce.start)
          (10 * t.cfg.points[fieldPoint p].debounce)) ∧
      (.chatterDecayExpiry ∈ t.pending ↔ since t.decay (10 * t.cfg.settings.decay)) ∧
      (∀ p : Fin 256, .forceExpiry p ∈ t.pending ↔
        ∃ e ∈ t.forces, e.point = fieldPoint p ∧ e.start + 600000 * e.minutes ≤ t.now) ∧
      (∀ u : Fin 9, .modeSettleExpiry u ∈ t.pending ↔
        since t.un[u].settle (10000 * t.cfg.units[u].settle)) ∧
      (∀ g : Fin 16, .groupSettleExpiry g ∈ t.pending ↔
        t.grp[g].state = .settling ∧ out t.grp[g].timer) ∧
      (.frameClockPeriod ∈ t.pending ↔
        t.frameClock.begun = false ∨ t.frameClock.start + 400 ≤ t.now) ∧
      (∀ p : Fin 4, .keyReplyMiss p ∈ t.pending ↔ since t.pan[p].exchange 100) ∧
      (∀ p : Fin 4, .requestedTestExpiry p ∈ t.pending ↔
        ∃ x : RequestedTest, t.pan[p].test = some x ∧ x.start + 10000 * x.seconds ≤ t.now) ∧
      (∀ p : Fin 4, .chimeEnd p ∈ t.pending ↔
        ∃ b : Nat, t.pan[p].horn = .chime b ∧ b + 10000 ≤ t.now) ∧
      (∀ k : Fin 32, .delayExpiry k ∈ t.pending ↔
        t.operating = true ∧ t.eqn[k].state = .timing ∧
          since t.eqn[k].timing (10 * t.cfg.equations[k].delay)) ∧
      (∀ o : Fin 16, .pulseExpiry o ∈ t.pending ↔ out t.out[o].pulse) ∧
      (∀ o : Fin 16, .verifyExpiry o ∈ t.pending ↔ out t.out[o].verify) ∧
      (.minuteWatchExpiry ∈ t.pending ↔ since t.clock.watch 1500000) ∧
      (.interByteSilence ∈ t.pending ↔
        (∃ last : Nat, t.link.receiver = .skip last ∧ last + 30 < t.now) ∨
        ∃ (bs : List Byte) (last : Nat), t.link.receiver = .receiving bs last ∧ last + 30 < t.now) ∧
      (.silenceTimerExpiry ∈ t.pending ↔ since t.link.silence (10000 * t.cfg.settings.silence)) ∧
      (.saveFailure ∈ t.pending ↔
        ∃ j : SaveJob, t.store.job = some j ∧ j.start + 20000 ≤ t.now) ∧
      (.settleEnd ∈ t.pending ↔ since t.settle 2500)

/-- The controller never stops: every step, and every command, ends in a next state. (That a command no
sender of the manual can make goes on too is the model's choice, log entry 24.) -/
def Obligations.EveryCommandGoesOn : Prop :=
  (∀ (c : Instr) (s : State), ∃ t : State, exec c s = .next t) ∧
  ∀ s : State, ∃ t : State, step s = .next t

/-- The state after reset is what a power-on makes of a controller with a blank store: an image that is
bad leaves the defaults, UNCONFIGURED, no settle, a clock UNSET at day 0, and a log of three records
(the contents of a blank store and the strap number 12 are log entry 11). Every law
that Safety.lean names holds in it. -/
def Obligations.ResetIsFirstPowerOnAndLawful : Prop :=
  exec .powerOn State.reset = .next State.reset ∧
  State.reset.service = .unconfigured ∧ State.reset.settle = none ∧
  State.reset.cfg = Tables.default ∧ State.reset.forces = [] ∧
  State.reset.clock = ⟨⟨0, 0⟩, .unset, none⟩ ∧
  State.reset.log.recs.map LogRecord.body =
    [.service .unconfigured .powerOnDefaults,
     .point 260 .abnormal { startup := true, system := true } ⟨0, 0⟩,
     .point 264 .abnormal { startup := true, system := true } ⟨0, 0⟩] ∧
  State.reset.systemLaw ∧ State.reset.log.law ∧ State.reset.hornLaw ∧ State.reset.callLaw ∧
  State.reset.windowLaw ∧ State.reset.groupLaw ∧ State.reset.changeoverLaw ∧
  State.reset.chatterLaw ∧ State.reset.forceLaw ∧ State.reset.orderLaw ∧ State.reset.outputLaw ∧
  State.reset.dayTimeLaw ∧ State.reset.qualifierLaw ∧ State.reset.activeLaw ∧
  State.reset.timingLaw ∧ State.reset.roleLaw ∧ State.reset.modeLaw

/-! ### What commands leave -/

/-- No command moves elapsed time or the queue; the clock, the store, the service state and the settle,
the free-value counter and the frame clock are changed by the commands that own them alone. (That commands
take no time and that the queue stands outside them are the model's choices, log entry 1; the draw counter
is the model's own, log entries 8 to 10.) -/
def Obligations.ClockStoreServiceFrame : Prop :=
  ∀ (c : Instr) (s t : State), exec c s = .next t →
    t.now = s.now ∧ t.pending = s.pending ∧
    (c.setsClock = false → t.clock = s.clock) ∧
    (c.setsStore = false → t.store = s.store) ∧
    (c.setsService = false → t.service = s.service ∧ t.settle = s.settle) ∧
    (c.drawsFree = false → t.draws = s.draws) ∧
    (c.starts = false → c ≠ .frameClockPeriod → t.frameClock = s.frameClock)

/-- The link is changed by frames, by its own events and by the starts alone, its straps by nothing;
every configured record but an equation's is changed by the PUT requests and the starts alone. -/
def Obligations.LinkConfigurationFrame : Prop :=
  ∀ (c : Instr) (s t : State), exec c s = .next t →
    t.link.straps = s.link.straps ∧
    (c.starts = false → t.link.station = s.link.station) ∧
    (c.setsLink = false → t.link = s.link) ∧
    (c.puts = false → c.starts = false → { t.cfg with equations := s.cfg.equations } = s.cfg)

/-- The contact level of a field point is changed by its own command alone. Its qualification is changed
by the commands of its own point, the decay timer, PUT_POINT, SET_SERVICE, the settle end and the starts
alone; the Force Table and the decay timer by the commands that own them alone. -/
def Obligations.PointForceFrame : Prop :=
  ∀ (c : Instr) (s t : State), exec c s = .next t →
    (∀ p : Fin 256, (∀ v, c ≠ .contactLevelChange p v) →
      t.pt[fieldPoint p].raw = s.pt[fieldPoint p].raw) ∧
    (∀ p : Fin 256, c.setsPoints = false →
      { t.pt[fieldPoint p] with active := s.pt[fieldPoint p].active } = s.pt[fieldPoint p]) ∧
    (∀ (q p : Fin 256) (v : Bool), c = .contactLevelChange q v ∨ c = .debounceExpiry q → p ≠ q →
      { t.pt[fieldPoint p] with active := s.pt[fieldPoint p].active } = s.pt[fieldPoint p]) ∧
    (c.setsForces = false → t.forces = s.forces) ∧
    (c.setsDecay = false → t.decay = s.decay)

/-- The units, the panels (but for call sets and horns), and of the outputs the manual demands, the
readbacks and the fault flags are changed by the commands that own them alone. -/
def Obligations.UnitPanelOutputFrame : Prop :=
  ∀ (c : Instr) (s t : State), exec c s = .next t →
    (c.setsUnits = false → t.un = s.un) ∧
    (c.setsPanels = false → ∀ p : Fin 4,
      { t.pan[p] with calls := s.pan[p].calls, horn := s.pan[p].horn } = s.pan[p]) ∧
    (∀ (q p : Fin 4) (bs : List Byte), c = .keyReply q bs ∨ c = .keyReplyMiss q → p ≠ q →
      { t.pan[p] with calls := s.pan[p].calls, horn := s.pan[p].horn } = s.pan[p]) ∧
    (c.setsManual = false → ∀ o : Fin 16, t.out[o].manual = s.out[o].manual) ∧
    (∀ o : Fin 16, (∀ v, c ≠ .readbackChange o v) → t.out[o].readback = s.out[o].readback) ∧
    (c.setsFaults = false → ∀ o : Fin 16, t.out[o].fault = s.out[o].fault)

/-- A record held stays where it is and as it is, but for the newest one where it is a GAP record, which
may count losses and keeps its number, its storage time and its first lost time (R147); and a news flag
that is set stays set: under every command but READ_EVENTS and the starts, and READ_STATUS, CLEAR_NEWS
and the starts. -/
def Obligations.LogNewsFrame : Prop :=
  ∀ (c : Instr) (s t : State), exec c s = .next t →
    (c.removesRecords = false →
      s.log.recs.length ≤ t.log.recs.length ∧
      ∀ (i : Nat) (r : LogRecord), s.log.recs[i]? = some r →
        ∃ r' : LogRecord, t.log.recs[i]? = some r' ∧
          (r' = r ∨ i + 1 = s.log.recs.length ∧ r.countsOn r')) ∧
    (c.clearsNews = false → ∀ u : Fin 9,
      (s.news[u].alert = true → t.news[u].alert = true) ∧
      (s.news[u].trip = true → t.news[u].trip = true) ∧
      (s.news[u].mode = true → t.news[u].mode = true) ∧
      (s.news[u].fault = true → t.news[u].fault = true))

/-! ### Laws that every step keeps -/

/-- Every system point goes on standing as its owner's condition (R13). -/
def Obligations.SystemPointsFollowOwners : Prop :=
  ∀ s t : State, s.systemLaw → step s = .next t → t.systemLaw

/-- The law of the log (R146), and that a 1024th record is a GAP record, is kept. -/
def Obligations.LogLawKept : Prop :=
  ∀ s t : State, s.log.law → step s = .next t → t.log.law

/-- A horn goes on sounding a class cadence exactly while its call set is not empty, that of the highest
class; and every class in a call set goes on being the class of a window in ALERT on the panel's list
(R97), where the law of window states holds (R42: no SEQ-S window is in ALERT). -/
def Obligations.HornAndCallSetLawsKept : Prop :=
  ∀ s t : State, step s = .next t →
    (s.hornLaw → t.hornLaw) ∧ (s.windowLaw → s.callLaw → t.callLaw)

/-- The law of window states (R42) is kept. -/
def Obligations.WindowLawKept : Prop :=
  ∀ s t : State, s.windowLaw → step s = .next t → t.windowLaw

/-- A first-out set goes on holding 0 to 4 points, empty exactly in ARMED (R67), with a stamp exactly
while it is not empty and a settle timer exactly in SETTLING. -/
def Obligations.GroupLawKept : Prop :=
  ∀ s t : State, s.groupLaw → step s = .next t → t.groupLaw

/-- The law of changeover (R30) is kept, and no decoded mode or target is CHANGEOVER. The laws of the roles
(R2, R24) are kept, and with both of them the law of the modes: the decoded mode is that of the unit's mode
points (R27), the current mode is the decoded mode out of CHANGEOVER (R28), and the target is the decoded
mode in it (R29). -/
def Obligations.ChangeoverLawKept : Prop :=
  ∀ s t : State, step s = .next t →
    (s.changeoverLaw → t.changeoverLaw) ∧ (s.roleLaw → t.roleLaw) ∧
    (s.roleLaw → s.changeoverLaw → s.modeLaw → t.modeLaw)

/-- What runs only while points are qualified goes on doing so (R1, R8), and with it the law of the chatter
filter is kept (R10), and every active flag stands as the three conditions of R12 give it. -/
def Obligations.ChatterAndActiveLawsKept : Prop :=
  ∀ s t : State, s.qualifierLaw → step s = .next t →
    t.qualifierLaw ∧ (s.chatterLaw → t.chatterLaw) ∧ (s.activeLaw → t.activeLaw)

/-- The Force Table goes on holding at most 8 entries, no two for one point, each for a point of kind
ALARM or STATUS. -/
def Obligations.ForceLawKept : Prop :=
  ∀ s t : State, s.forceLaw → step s = .next t → t.forceLaw

/-- The law of ordering (R104) is kept by active and pending equation records; and so are the law of timing
(R110), the law of the following hold (R114), and that every equation is UNUSED at rest (R123). -/
def Obligations.OrderLawKept : Prop :=
  ∀ s t : State, step s = .next t →
    (s.orderLaw → t.orderLaw) ∧ (s.timingLaw → t.timingLaw)

/-- The law of the outputs (R126, R127) is kept: the demanding equations are the TRIPPED equations that
name the output, and the commanded state follows. -/
def Obligations.OutputLawKept : Prop :=
  ∀ s t : State, s.outputLaw → step s = .next t → t.outputLaw

/-- The day-time goes on lying in 0..863,999,999 (R136). -/
def Obligations.DayTimeLawKept : Prop :=
  ∀ s t : State, s.dayTimeLaw → step s = .next t → t.dayTimeLaw

/-! ### Frames -/

/-- A request frame built as 09 section 9.1 lays it out is judged to be that request at its own station
and nothing at another, for every kind code, selection and body; as a broadcast it is a SET_TIME or is
not taken, and a station without a number drops it (log entry 19); and each known kind has its own
owner. A complete frame is judged by the steps of R154 in their order: one whose last two bytes are not the
check word over its bytes between the lead and them is dropped, then one with another station's address, then
one whose kind is 128 or more. The check word is computed as R152 says, and the fields of a frame stand at the
offsets of 11 section 11.2, the least significant byte first. -/
def Obligations.FramesAreReadWhole : Prop :=
  (∀ (station kind : Nat) (sel : Word) (body : List Byte),
    station < 32 → kind < 128 → body.length ≤ 200 →
      (station ≠ 0 → judgeFrame station (frameOf station kind sel body) = .request kind ⟨sel, body⟩) ∧
      (∀ other : Nat, other < 32 → station ≠ 0 → other ≠ station →
        judgeFrame other (frameOf station kind sel body) = .dropped) ∧
      (station = 0 → ∀ other : Nat,
        judgeFrame other (frameOf 0 kind sel body) =
          if kind = 0x28 then .broadcastTime ⟨sel, body⟩
          else if other = 0 then .dropped else .broadcast) ∧
      (∀ other : Nat, judgeFrame other (frameOf station (kind + 128) sel body) = .dropped)) ∧
  (∀ (c : Instr) (h : Handler) (r : Request), c.request = some (h, r) →
    h.kind < 128 ∧ handlerOf h.kind = some h) ∧
  (∀ (station : Nat) (f : List Byte), f.length = 8 + rd8 f 5 →
    let address := rd8 f 1
    let kind := rd8 f 2
    let r : Request := ⟨BitVec.ofNat 16 (rd16 f 3), (f.drop 6).take (rd8 f 5)⟩
    judgeFrame station f =
      if rd16 f (6 + rd8 f 5) ≠ (crc16 ((f.drop 1).take (5 + rd8 f 5))).toNat then .dropped
      else if address ≠ 0 ∧ address ≠ station then .dropped
      else if 128 ≤ kind then .dropped
      else if address ≠ 0 then .request kind r
      else if kind = 0x28 then .broadcastTime r
      else if station = 0 then .dropped else .broadcast) ∧
  (∀ (address kind : Nat) (sel : Word) (body : List Byte),
    address < 256 → kind < 256 → body.length ≤ 200 →
    let f := frameOf address kind sel body
    f.length = 8 + body.length ∧ rd8 f 0 = 210 ∧ rd8 f 1 = address ∧ rd8 f 2 = kind ∧
    rd16 f 3 = sel.toNat ∧ rd8 f 5 = body.length ∧ (f.drop 6).take body.length = body ∧
    rd16 f (6 + body.length) = (crc16 ((f.drop 1).take (5 + body.length))).toNat) ∧
  crc16 [] = 0xFFFF#16 ∧
  (∀ (bs : List Byte) (x : Byte), crc16 (bs ++ [x]) =
    (List.range 8).foldl (fun (c : Word) i =>
      if c.msb != x.getLsbD (7 - i) then (c <<< 1) ^^^ 0x1021#16 else c <<< 1) (crc16 bs)) ∧
  (∀ (b : List Byte) (i : Nat),
    rd8 b i = (b.getD i 0#8).toNat ∧ rd16 b i = rd8 b i + 256 * rd8 b (i + 1) ∧
    rd32 b i = rd16 b i + 65536 * rd16 b (i + 2)) ∧
  ∀ n : Nat, byteOf n = BitVec.ofNat 8 n ∧ le16 n = [byteOf n, byteOf (n / 256)]

/-! ### Points, units and groups -/

/-- A change of contact level acts on the debounce timer as the table of R5 gives, L being the level
mapped through the sense; with a debounce of 0 the transition is taken at once (R6). -/
def Obligations.ContactLevelActsOnDebounce : Prop :=
  ∀ (p : Fin 256) (level : Bool) (s : State), s.systemLaw →
    let q := fieldPoint p
    let c := s.cfg.points[q]
    let r := s.pt[q]
    let L : PointState :=
      match c.sense with
      | .alarmOnClosed => if level then .abnormal else .normal
      | .alarmOnOpen => if level then .normal else .abnormal
    (r.raw = level → exec (.contactLevelChange p level) s = .next s) ∧
    (r.raw ≠ level → s.operating = false ∨ c.kind.qualified = false →
      exec (.contactLevelChange p level) s = .next (s.modPt q fun r => { r with raw := level })) ∧
    (r.raw ≠ level → s.operating = true → c.kind.qualified = true →
      (r.debounce = none → L = r.qual →
        exec (.contactLevelChange p level) s = .next (s.modPt q fun r => { r with raw := level })) ∧
      (r.debounce = none → L ≠ r.qual → c.debounce ≠ 0 →
        exec (.contactLevelChange p level) s =
          .next (s.modPt q fun r => { r with raw := level, debounce := some ⟨s.stamp, s.now⟩ })) ∧
      (r.debounce = none → L ≠ r.qual → c.debounce = 0 →
        ∃ t : State, exec (.contactLevelChange p level) s = .next t ∧ t.pt[q].raw = level ∧
          t.pt[q].qual = L ∧ t.pt[q].lastEdge = s.stamp ∧ t.pt[q].debounce = none) ∧
      (r.debounce.isSome = true → L = r.qual →
        exec (.contactLevelChange p level) s =
          .next (s.modPt q fun r => { r with raw := level, debounce := none })))

/-- At its expiry a debounce timer makes a qualification transition: the qualified state becomes the
mapped level, the last edge time the captured edge, the score rises by the weight up to 255 and the
chatter check is made; then the suppressed count of a point that was chattering rises (R6). A point that is
logged writes its POINT record where it was not chattering, then CHATTER_ON where the check makes it
chatter, and CHATTER_OFF with the count before this transition where the check ends its chattering. -/
def Obligations.DebounceExpiryQualifies : Prop :=
  ∀ (p : Fin 256) (s : State),
    let q := fieldPoint p
    let c := s.cfg.points[q]
    let r := s.pt[q]
    let L : PointState :=
      match c.sense with
      | .alarmOnClosed => if r.raw then .abnormal else .normal
      | .alarmOnOpen => if r.raw then .normal else .abnormal
    let score := min 255 (r.score + c.weight)
    (∀ e : TimeStamp, s.debounceDue q = some e ↔
      ∃ d : Debounce, r.debounce = some d ∧ d.edge = e ∧ d.start + 10 * c.debounce ≤ s.now) ∧
    (s.debounceDue q = none → exec (.debounceExpiry p) s = .next s) ∧
    ∀ e : TimeStamp, s.debounceDue q = some e →
      ∃ t : State, exec (.debounceExpiry p) s = .next t ∧
        t.pt[q].raw = r.raw ∧ t.pt[q].qual = L ∧ t.pt[q].lastEdge = e ∧ t.pt[q].debounce = none ∧
        t.pt[q].score = score ∧
        t.pt[q].chattering =
          (if r.chattering then decide (c.threshold / 2 < score) else decide (c.threshold ≤ score)) ∧
        t.pt[q].suppressed =
          (if r.chattering then
            if score ≤ c.threshold / 2 then 1 else min 65535 (r.suppressed + 1)
           else r.suppressed) ∧
        t.effective q = (s.forcedValue q).getD L ∧
        (s.room 1 → r.chattering = false → c.logging = true →
          s.records t 0 s.stamp (.point q L { forced := s.forced q } e)) ∧
        (s.room 2 → r.chattering = false → c.logging = true → c.threshold ≤ score →
          s.records t 1 s.stamp (.chatterOn q score)) ∧
        (s.room 1 → r.chattering = true → c.logging = true → score ≤ c.threshold / 2 →
          s.records t 0 s.stamp (.chatterOff q L r.suppressed))

/-- At an expiry of the decay timer the score of every qualified point above 0 falls by 1, the chatter
check is made for it, and the timer runs on at its interval; no point changes otherwise but its
active flag. -/
def Obligations.DecayExpiryLowersScores : Prop :=
  ∀ s : State,
    (s.decayDue = true ↔ ranOut s.now s.decay (10 * s.cfg.settings.decay)) ∧
    (s.decayDue = false → exec .chatterDecayExpiry s = .next s) ∧
    (s.decayDue = true →
      ∃ t : State, exec .chatterDecayExpiry s = .next t ∧
        t.decay = s.decay.map (fun d => d + s.cfg.settings.decay * 10) ∧
        ∀ p : Fin 256,
          let c := s.cfg.points[fieldPoint p]
          let r := s.pt[fieldPoint p]
          let r' := t.pt[fieldPoint p]
          if c.kind.qualified = true ∧ 0 < r.score then
            r'.score = r.score - 1 ∧
            r'.chattering =
              (if r.chattering then decide (c.threshold / 2 < r.score - 1)
               else decide (c.threshold ≤ r.score - 1)) ∧
            r'.suppressed =
              (if r.chattering && decide (r.score - 1 ≤ c.threshold / 2) then 0 else r.suppressed) ∧
            r'.qual = r.qual ∧ r'.raw = r.raw ∧ r'.lastEdge = r.lastEdge ∧ r'.debounce = r.debounce
          else { r' with active := r.active } = r)

/-- At its expiry a force entry leaves the table with a FORCE_OFF record of reason EXPIRY, the point's
effective state becomes its qualified state, and point 263 is NORMAL where the table is now empty. -/
def Obligations.ForceExpiryRemovesEntry : Prop :=
  ∀ (p : Fin 256) (s : State),
    let q := fieldPoint p
    (s.forceDue q = true ↔ ∃ e ∈ s.forces, e.point = q ∧ e.start + 600000 * e.minutes ≤ s.now) ∧
    (s.forceDue q = false → exec (.forceExpiry p) s = .next s) ∧
    (s.forceDue q = true →
      ∃ t : State, exec (.forceExpiry p) s = .next t ∧
        t.forces = s.forces.filter (fun e => e.point ≠ q) ∧
        t.effective q = s.pt[q].qual ∧
        t.pt[sysPoint 7].qual = (if t.forces.isEmpty then .normal else .abnormal) ∧
        ∀ v : PointState, s.forcedValue q = some v → s.room 1 →
          s.records t 0 s.stamp (.forceOff q v .expiry))

/-- At the expiry of its settle timer a unit takes its target, with a MODE record and the MODE news; the
other units stand (R30). A unit whose decoded mode is formed again starts a changeover, takes the mode at
once or takes a new target as R28 and R29 say, and each change of current mode writes its MODE record, sets
the news, and is handed to the points of the unit and to Trip Logic (R31, R32; that the points are told before
Trip Logic is the model's choice, log entry 12). A change of effective state of a point is handed to Trip Logic,
to each unit that names the point as a mode point, and to each unit whose block key it is (R11, R27, R33; the
order of the units is log entries 16 and 29). PUT_UNIT acts on the timer, the mode and the blocked state of its
unit (R25). -/
def Obligations.ModeSettleExpiryTakesTarget : Prop :=
  (∀ (u : Fin 9) (s : State),
    (s.settleDue u = true ↔ ranOut s.now s.un[u].settle (10000 * s.cfg.units[u].settle)) ∧
    (s.settleDue u = false → exec (.modeSettleExpiry u) s = .next s) ∧
    (s.settleDue u = true →
      ∃ t : State, exec (.modeSettleExpiry u) s = .next t ∧
        t.un[u] = { s.un[u] with
          current := s.un[u].target.getD s.un[u].decoded, target := none, settle := none } ∧
        (∀ v : Fin 9, v ≠ u → t.un[v] = s.un[v]) ∧
        t.news[u].mode = true ∧
        (s.room 1 →
          s.records t 0 s.stamp (.mode u s.un[u].current (s.un[u].target.getD s.un[u].decoded))))) ∧
  (∀ (u : Fin 9) (s : State),
    let d := s.decode u
    let r := s.un[u]
    let r' := r.afterDecode d s.cfg.units[u].settle s.now s.operating
    let t := redecode u s
    t.un[u] = r' ∧ (∀ v : Fin 9, v ≠ u → t.un[v] = s.un[v]) ∧
    (r'.current = r.current → { t with un := s.un } = s) ∧
    (r'.current ≠ r.current → t.news[u].mode = true ∧
      (s.room 1 → s.records t 0 s.stamp (.mode u r.current r'.current)))) ∧
  (∀ (u : Fin 9) (m : Mode) (s : State),
    let changed := logged (fun s' => (s'.write (.mode u s.un[u].current m)).setNews u .mode)
      (s.modUn u fun r => { r with current := m })
    changeMode u m s = handTerm (.mode u) s.stamp
      (each 268 (fun p s' =>
        if s'.cfg.points[p].kind = .alarm ∧ s'.cfg.points[p].unit = u then
          evalActive p .mode s.stamp s'
        else s') changed)) ∧
  (∀ (p : Fin 268) (e : TimeStamp) (s : State),
    let t := handEffective p e s
    let isMode := fun u : Fin 9 => s.cfg.units[u].run = some p ∨ s.cfg.units[u].pump = some p ∨
      s.cfg.units[u].cond = some p
    ((∀ u : Fin 9, ¬ isMode u ∧ s.cfg.units[u].key ≠ some p) → t = handTerm (.point p) e s) ∧
    (s.roleLaw → ∀ u : Fin 9, (isMode u → t.un[u].decoded = s.decode u) ∧
      (s.cfg.units[u].key = some p →
        t.un[u].blocked = decide (s.effective p = .abnormal) ∧
        t.pt[sysPoint 10].qual =
          (if (List.finRange 9).any fun v => t.un[v].blocked then .abnormal else .normal)))) ∧
  ∀ (r : Request) (s : State) (u : Fin 9) (c : UnitConfig), s.hears → s.systemLaw → s.roleLaw →
    r.sel.toNat < 512 → s.store.job = none → r.body.length = 12 → rd8 r.body 0 = u.val →
    UnitPut s.cfg.units[u] r.body c → ¬ unitAtOdds s.cfg u (rd8 r.body 1) c →
    let old := s.cfg.units[u]
    let lapsed := c.settle != old.settle &&
      s.un[u].settle.any fun b => b + 10000 * c.settle ≤ s.now
    let x := s.un[u]
    let x := if lapsed then { x with current := x.target.getD x.decoded, target := none, settle := none }
      else x
    let x := if c.run = old.run ∧ c.pump = old.pump ∧ c.cond = old.cond then x
      else x.afterDecode
        ((s.setCfg { s.cfg with units := s.cfg.units.set u.val c u.isLt }).decode u) c.settle s.now
        s.operating
    let blocked := if c.key = old.key then x.blocked
      else match c.key with
        | none => false
        | some p => decide (s.effective p = .abnormal)
    ∃ t : State, exec (.putUnit r) s = .next t ∧ t.un[u] = { x with blocked := blocked } ∧
      ∀ v : Fin 9, v ≠ u → t.un[v] = s.un[v]

/-- A group takes a capture event as R67 to R70 and R72 give: it starts a set in ARMED, with its FIRST_OUT
record at once where the resolve window is 0, is judged against the stamp in SETTLING, and is counted in
CAPTURED; no other group changes, and nothing else does. At the expiry of its settle
timer a group is CAPTURED and its FIRST_OUT record is written, and nothing else changes (R71). -/
def Obligations.GroupsCapture : Prop :=
  (∀ (g : Fin 16) (s : State), s.systemLaw → s.room 1 →
    (s.groupDue g = true ↔ s.grp[g].state = .settling ∧
      ∃ x : Timer, s.grp[g].timer = some x ∧ x.start + x.dur ≤ s.now) ∧
    (s.groupDue g = false → exec (.groupSettleExpiry g) s = .next s) ∧
    (s.groupDue g = true →
      exec (.groupSettleExpiry g) s =
        .next ((s.modGrp g fun r => { r with state := .captured, timer := none }).put
          (.firstOut g (s.grp[g].stamp.getD ⟨0, 0⟩) s.grp[g].firstOut)))) ∧
  ∀ (g : Fin 16) (p : Fin 268) (e : TimeStamp) (s : State),
    let r := s.grp[g]
    let t := captureEvent g p e s
    let R := s.cfg.groups[g].resolve
    (∀ j : Fin 16, j ≠ g → t.grp[j] = s.grp[j]) ∧
    (r.state = .armed → R = 0 →
      t = (s.modGrp g fun r => r.firstEvent p e 0 s.now).write (.firstOut g e [p])) ∧
    (r.state ≠ .armed ∨ R ≠ 0 → { t with grp := s.grp } = s) ∧
    r.firstEvent p e R s.now =
      { r with
        state := if R = 0 then .captured else .settling
        firstOut := [p], stamp := some e
        timer := if R = 0 then none else some ⟨s.now, 10 * R⟩ } ∧
    r.rearmed =
      { r with state := .armed, firstOut := [], stamp := none, subsequent := 0, overfull := false,
               timer := none } ∧
    (r.state = .armed → R = 0 →
      t.grp[g] = { r with state := .captured, firstOut := [p], stamp := some e, timer := none }) ∧
    (r.state = .armed → R ≠ 0 →
      t.grp[g] = { r with state := .settling, firstOut := [p], stamp := some e,
                          timer := some ⟨s.now, 10 * R⟩ }) ∧
    (∀ T : TimeStamp, r.state = .settling → r.stamp = some T →
      (e ≠ T → e.earlier T = true →
        t.grp[g] = { r with
          firstOut := [p], stamp := some e, overfull := false
          subsequent :=
            min 255 (r.subsequent + (r.firstOut.length - if p ∈ r.firstOut then 1 else 0)) }) ∧
      (e ≠ T → e.earlier T = false →
        t.grp[g] = { r with subsequent := min 255 (r.subsequent + 1) }) ∧
      (e = T → p ∈ r.firstOut →
        t.grp[g] = { r with subsequent := min 255 (r.subsequent + 1) }) ∧
      (e = T → p ∉ r.firstOut → r.firstOut.length < 4 →
        t.grp[g] = { r with firstOut := r.firstOut ++ [p] }) ∧
      (e = T → p ∉ r.firstOut → 4 ≤ r.firstOut.length →
        t.grp[g] = { r with subsequent := min 255 (r.subsequent + 1), overfull := true })) ∧
    (r.state = .captured → t.grp[g] = { r with subsequent := min 255 (r.subsequent + 1) })

/-- A window takes an arrival, a departure, ACK and RESET as the tables of R43 to R48 give for its type,
with their calls, exits from ALERT and chime requests, and no other window changes. A call adds the class to
the call sets of the panels that show the window, with the cadence of R98 and the ALERT news of its unit
(R50, R52); an exit from ALERT takes from them the classes that no window in ALERT on the list has (R51); a
chime sounds where the call set is empty (R56, R99). A change of the list without a change of condition is a
condition event for a SEQ-N window in ALERT alone (R40, R54). A change of active flag reaches the point's
window as an arrival or a departure, and its group where the cause makes a capture event (R12, R41, R65): the
flag is formed by the three conditions of R12, and a point of kind ALARM or SYSTEM contributes to the window and
is a member of the group that its record names (R39, R65). -/
def Obligations.WindowSequenceTables : Prop :=
  (∀ (w : Fin 192) (u : Fin 9) (s : State),
    let seq := s.cfg.windows[w].seq
    let x := s.win[w]
    let cond := s.condition w
    (arrival w u s = if seq = .seqS then s.setWin w .held else call w u (s.setWin w .alert)) ∧
    (departure w s =
      if cond then s
      else match seq, x with
        | .seqF, .held => chimeRequest w (s.setWin w .returned)
        | .seqN, .alert => exitAlert w (s.setWin w .quiet)
        | .seqA, .held | .seqN, .held | .seqS, .held => s.setWin w .quiet
        | _, _ => s) ∧
    (listChange w s = if seq = .seqN ∧ x = .alert then departure w s else s) ∧
    ((ackWindow w s).1 =
      if x = .alert ∧ seq ≠ .seqS then
        if cond then exitAlert w (s.setWin w .held)
        else if seq = .seqF then chimeRequest w (exitAlert w (s.setWin w .returned))
        else exitAlert w (s.setWin w .quiet)
      else s) ∧
    ((ackWindow w s).2 = (x == .alert && seq != .seqS)) ∧
    ((resetWindow w s).1 = if seq = .seqF ∧ x = .returned then s.setWin w .quiet else s) ∧
    ((resetWindow w s).2 = (seq == .seqF && x == .returned)) ∧
    (∀ v : Fin 192,
      (arrival w u s).win[v] = (if v = w then if seq = .seqS then .held else .alert else s.win[v]) ∧
      (v ≠ w → (departure w s).win[v] = s.win[v]) ∧
      (ackWindow w s).1.win[v] = (if v = w then ackedState seq x cond else s.win[v]) ∧
      (resetWindow w s).1.win[v] = (if v = w then resetState seq x else s.win[v])) ∧
    (∀ p : Fin 4,
      let shown := w ∈ s.cfg.panels[p].positions
      let called := (call w u s).pan[p]
      let left := (exitAlert w s).pan[p]
      (shown → called = s.pan[p].called called.calls s.now ∧
        left = s.pan[p].called left.calls s.now ∧
        ∀ c : WindowClass,
          called.calls.has c = (s.pan[p].calls.has c || c == s.cfg.windows[w].cls) ∧
          left.calls.has c = (s.pan[p].calls.has c && s.cfg.panels[p].positions.any fun v =>
            s.win[v] == .alert && s.cfg.windows[v].cls == c)) ∧
      (¬ shown → called = s.pan[p] ∧ left = s.pan[p]) ∧
      (chimeRequest w s).pan[p] =
        if shown ∧ s.cfg.windows[w].ringback = true ∧ s.pan[p].calls = ClassSet.empty then
          { s.pan[p] with horn := .chime s.now }
        else s.pan[p]) ∧
    (∀ v : Fin 9, (call w u s).news[v] =
      if v = u then { s.news[u] with alert := true } else s.news[v]) ∧
    { call w u s with pan := s.pan, news := s.news } = s ∧
    { exitAlert w s with pan := s.pan } = s ∧ { chimeRequest w s with pan := s.pan } = s) ∧
  ∀ (p : Fin 268) (cause : Cause) (e : TimeStamp) (s : State),
    let c := s.cfg.points[p]
    let v := s.isActive p
    let t := s.modPt p fun r => { r with active := v }
    let toWindow := match c.contributes with
      | none => t
      | some w => if v then arrival w (s.pointUnit p) t else departure w t
    let handed :=
      if s.pt[p].active = v then s
      else match c.memberOf with
        | none => toWindow
        | some g =>
          if v = true ∧ (cause = .qualify ∨ cause = .system ∨ cause = .force) then
            captureEvent g p e toWindow
          else toWindow
    (v = true ↔ (c.kind = .alarm ∨ c.kind = .system) ∧
      (s.effective p = .abnormal ∨ s.forced p = false ∧ s.pt[p].chattering = true) ∧
      (c.unit = 0 ∨ 256 ≤ p.val ∨ c.mask.getLsbD s.un[c.unit].current.code = true)) ∧
    (∀ w : Fin 192, c.contributes = some w ↔ (c.kind = .alarm ∨ c.kind = .system) ∧ c.window = some w) ∧
    (∀ g : Fin 16, c.memberOf = some g ↔ (c.kind = .alarm ∨ c.kind = .system) ∧ c.group = some g) ∧
    s.pointUnit p = (if p.val < 256 then c.unit else 0) ∧
    changeActive p cause e c.contributes c.memberOf s = handed ∧
    evalActive p cause e s = logged (changeActive p cause e c.contributes c.memberOf) s

/-! ### Panels -/

/-- At each period the frame clock advances its phase, but for the first, and each panel that is STARTING
or UP has its LAMP frame, a LOST panel in every 25th period, a DISABLED one never (R81). Whether a frame
reaches the fascia is a free value (log entry 8); the beginning of the first period is log entry 7. A fascia
takes the phase, the brightness and the codes of a frame whose check word verifies and leaves any other (R83,
R176). -/
def Obligations.FramePeriodSendsLampFrames : Prop :=
  (∀ (old : Option Fascia) (f : List Byte) (now : Nat), f.length = 69 →
    Fascia.receive old f now =
      if rd16 f 67 = (crc16 (f.take 67)).toNat then
        some ⟨f.getD 1 0#8, rd8 f 2, (f.drop 3).take 64, now⟩
      else old) ∧
  ∀ s : State,
    (s.periodDue = true ↔ s.frameClock.begun = false ∨ s.frameClock.start + 400 ≤ s.now) ∧
    (s.periodDue = false → exec .frameClockPeriod s = .next s) ∧
    (s.periodDue = true →
      ∃ t : State, exec .frameClockPeriod s = .next t ∧
        t.frameClock =
          (if s.frameClock.begun then ⟨s.frameClock.phase + 1, true, s.frameClock.start + 400⟩
           else ⟨s.frameClock.phase, true, s.frameClock.start⟩) ∧
        ∀ p : Fin 4,
          let r := s.pan[p]
          let frame := State.lampFrame { s with frameClock := t.frameClock } p
          let sent (r : PanelRun) : Prop := ∃ f : Option Fascia,
            (f = r.fascia ∨ f = Fascia.receive r.fascia frame s.now) ∧
            t.pan[p] = { r with lastFrame := some frame, exchange := some s.now, fascia := f }
          (r.link = .disabled → t.pan[p] = r) ∧
          (r.link = .starting ∨ r.link = .up → sent r) ∧
          (r.link = .lost → r.lostFor + 1 < 25 → t.pan[p] = { r with lostFor := r.lostFor + 1 }) ∧
          (r.link = .lost → 25 ≤ r.lostFor + 1 → sent { r with lostFor := 0 }))

/-- A good reply of a panel that is UP: presses are the counters that differ from the last seen ones,
taken ACK, SILENCE, RESET: ACK and RESET act on the windows of the panel's list, SILENCE on its call set
and horn, RESET on the groups at home on it (R86 to R89, R75); the key test follows TEST (R95). (That the
presses, and so the ACK record, stand before the key test that the same reply starts is log entry 18.) A RESET
press tests the active flags that stand when it is taken, on every log: where its RESET record fills the log
and point 261 goes active, a group with that point in its set is re-armed all the same, and the point's capture
event finds it ARMED (R75; that point 261 is handed on after the press is log entry 4). -/
def Obligations.GoodReplyTakesPresses : Prop :=
  (∀ (p : Fin 4) (bs : List Byte) (s : State), s.systemLaw → s.room 5 →
    s.waiting p = true → goodReply bs = true → s.pan[p].link = .up →
    let new := replyCounters bs
    let old := s.pan[p].seen.getD new
    let ws := s.cfg.panels[p].positions
    let seq := fun w : Fin 192 => s.cfg.windows[w].seq
    let acked := fun w : Fin 192 =>
      if new.ack = old.ack then s.win[w] else ackedState (seq w) s.win[w] (s.condition w)
    let rearms := fun g : Fin 16 => s.cfg.groups[g].home = some p ∧ s.grp[g].state = .captured ∧
      ∀ m ∈ s.grp[g].firstOut, s.pt[m].active = false
    ∃ t : State, exec (.keyReply p bs) s = .next t ∧
      t.pan[p].link = .up ∧ t.pan[p].seen = some new ∧ t.pan[p].keys = replyKeys bs ∧
      t.pan[p].misses = 0 ∧ t.pan[p].exchange = none ∧ t.pan[p].keyTest = (replyKeys bs).getLsbD 3 ∧
      (∀ w : Fin 192, t.win[w] =
        if w ∈ ws then if new.reset = old.reset then acked w else resetState (seq w) (acked w)
        else s.win[w]) ∧
      (new.silence ≠ old.silence → t.pan[p].calls = ClassSet.empty ∧ t.pan[p].horn = .silent) ∧
      (∀ g : Fin 16, (new.reset ≠ old.reset → rearms g → t.grp[g] = s.grp[g].rearmed) ∧
        (new.reset = old.reset ∨ ¬ rearms g → t.grp[g] = s.grp[g])) ∧
      t.pt = s.pt ∧ t.eqn = s.eqn ∧ t.out = s.out ∧
      (new.ack ≠ old.ack → ws.Nodup →
        let n := ws.countP fun w => s.win[w] == .alert && seq w != .seqS
        n ≠ 0 → s.records t 0 s.stamp (.operator .ack (some p) n))) ∧
  ∀ (p : Fin 4) (bs : List Byte) (old : Counters) (s : State), s.systemLaw → s.waiting p = true →
    goodReply bs = true → s.pan[p].link = .up → s.pan[p].seen = some old →
    old.ack = (replyCounters bs).ack → old.silence = (replyCounters bs).silence →
    old.reset ≠ (replyCounters bs).reset →
    let own := s.cfg.points[sysPoint 5].memberOf
    let rearms := fun g : Fin 16 => s.cfg.groups[g].home = some p ∧ s.grp[g].state = .captured ∧
      ∀ m ∈ s.grp[g].firstOut, s.pt[m].active = false
    ∃ t : State, exec (.keyReply p bs) s = .next t ∧
      (∀ g : Fin 16, own ≠ some g →
        (rearms g → t.grp[g] = s.grp[g].rearmed) ∧ (¬ rearms g → t.grp[g] = s.grp[g])) ∧
      (s.log.recs.length = 1023 → s.log.newestIsGap = false →
        (∃ w ∈ s.cfg.panels[p].positions, s.win[w] = .returned ∧ s.cfg.windows[w].seq = .seqF) →
        s.pt[sysPoint 5].active = false → s.forced (sysPoint 5) = false →
        t.pt[sysPoint 5].active = s.cfg.points[sysPoint 5].kind.annunciates ∧
        ∀ g : Fin 16, own = some g → rearms g →
          t.grp[g] = s.grp[g].rearmed.firstEvent (sysPoint 5) s.stamp s.cfg.groups[g].resolve s.now)

/-- A good reply takes a STARTING panel UP, but not during a settle, and a LOST panel to STARTING with
its system point NORMAL; no press is taken (R84, R85, R100). A reply that is not good, or comes outside
the wait, does nothing (its miss comes at the end of the wait: log entry 6). A reply is good exactly where it
has six bytes, the first 5Ah and the last two the check word over the others (R84, R176); the key levels stand in
bits 0 to 3 of byte 1, the counters in bits 0 to 3 and 4 to 7 of byte 2 and bits 0 to 3 of byte 3; and a panel is
waited for while 10 ms have not passed since its frame (at exactly 10 ms: log entry 26). -/
def Obligations.GoodReplyMovesLink : Prop :=
  (∀ bs : List Byte,
    let seen := replyCounters bs
    (goodReply bs = true ↔
      bs.length = 6 ∧ rd8 bs 0 = 0x5A ∧ rd16 bs 4 = (crc16 (bs.take 4)).toNat) ∧
    (replyKeys bs).toNat = rd8 bs 1 % 16 ∧ seen.ack.toNat = rd8 bs 2 % 16 ∧
    seen.silence.toNat = rd8 bs 2 / 16 ∧ seen.reset.toNat = rd8 bs 3 % 16) ∧
  (∀ (s : State) (p : Fin 4), (panelPoint p).val = p.val ∧
    (s.waiting p = true ↔ ∃ b : Nat, s.pan[p].exchange = some b ∧ s.now ≤ b + 100)) ∧
  ∀ (p : Fin 4) (bs : List Byte) (s : State), s.systemLaw →
    let r := s.pan[p]
    (s.waiting p = false ∨ goodReply bs = false → exec (.keyReply p bs) s = .next s) ∧
    (s.waiting p = true → goodReply bs = true →
      (r.link = .starting → s.settle.isSome = true →
        exec (.keyReply p bs) s = .next (s.modPan p fun r =>
          { r with exchange := none, seen := some (replyCounters bs), keys := replyKeys bs })) ∧
      (r.link = .starting → s.settle = none →
        ∃ t : State, exec (.keyReply p bs) s = .next t ∧ t.pan[p].link = .up ∧ t.pan[p].misses = 0 ∧
          t.pan[p].exchange = none ∧ t.pan[p].seen = some (replyCounters bs) ∧
          t.pan[p].keys = replyKeys bs ∧ t.pan[p].keyTest = (replyKeys bs).getLsbD 3 ∧
          (s.room 1 → t.win = s.win ∧ t.grp = s.grp ∧
            (r.keyTest = false → (replyKeys bs).getLsbD 3 = true →
              s.records t 0 s.stamp (.operator .lampTest (some p) 1)))) ∧
      (r.link = .lost →
        ∃ t : State, exec (.keyReply p bs) s = .next t ∧ t.pan[p].link = .starting ∧
          t.pan[p].exchange = none ∧ t.pan[p].seen = some (replyCounters bs) ∧
          t.pan[p].keys = replyKeys bs ∧ t.pt[sysPoint (panelPoint p)].qual = .normal ∧
          (s.room 1 → s.records t 0 s.stamp
            (.point (sysPoint (panelPoint p)) .normal { system := true } s.stamp))))

/-- A miss is counted by a panel that is UP, and the third takes it LOST with its system point ABNORMAL
and its key test ended; in other link states a miss ends the wait and nothing else (R84, R85). -/
def Obligations.MissesLoseThePanel : Prop :=
  ∀ (p : Fin 4) (s : State), s.systemLaw →
    let r := s.pan[p]
    (s.waitOver p = true ↔ ranOut s.now r.exchange 100) ∧
    (s.waitOver p = false → exec (.keyReplyMiss p) s = .next s) ∧
    (s.waitOver p = true →
      (r.link ≠ .up →
        exec (.keyReplyMiss p) s = .next (s.modPan p fun r => { r with exchange := none })) ∧
      (r.link = .up → r.misses + 1 < 3 →
        exec (.keyReplyMiss p) s =
          .next (s.modPan p fun r => { r with exchange := none, misses := r.misses + 1 })) ∧
      (r.link = .up → 3 ≤ r.misses + 1 →
        ∃ t : State, exec (.keyReplyMiss p) s = .next t ∧ t.pan[p].link = .lost ∧
          t.pan[p].misses = 0 ∧ t.pan[p].keyTest = false ∧ t.pan[p].exchange = none ∧
          t.pt[sysPoint (panelPoint p)].qual = .abnormal ∧
          (s.room 1 → s.records t 0 s.stamp
            (.point (sysPoint (panelPoint p)) .abnormal { system := true } s.stamp))))

/-! ### Equations and outputs -/

/-- When its remaining delay reaches 0 an equation enters TRIPPED: its TRIP record, the TRIP news of its
unit, its outputs demanded, then the higher equations (R112). Where no higher equation names it, nothing
else changes and each output of its set takes the demand (R126 to R128). Trip Logic takes a change of a
term, with its cause (R102, R113), as the state of the equation says (R109, R110, R114, R116): it starts the
delay, trips, cancels a timing or releases a trip (R115), each with its record, its outputs and its pending
record (R107), and hands an entry to and an exit from TRIPPED to the higher equations that name it, in
ascending number, each whole before the next (the order is log entry 12). The blocking and unblocking of a
unit take each of its equations (R119, R120). (Where a record of an equation fills the log, point 261 is
handed on once that equation has been taken whole: log entry 4.) -/
def Obligations.DelayExpiryTrips : Prop :=
  (∀ (k : Fin 32) (s : State),
    let e := s.cfg.equations[k]
    (s.delayDue k = true ↔ s.operating = true ∧ s.eqn[k].state = .timing ∧
      ranOut s.now s.eqn[k].timing (10 * e.delay)) ∧
    (s.delayDue k = false → exec (.delayExpiry k) s = .next s) ∧
    (s.delayDue k = true →
      ∃ t : State, exec (.delayExpiry k) s = .next t ∧ t.news[e.unit].trip = true ∧
        (s.room 1 → s.records t 0 s.stamp (.trip k e.outs s.eqn[k].cause)) ∧
        (s.systemLaw → s.room 1 →
          (∀ j : Fin 32, k < j → (s.cfg.equations[j].a.names (.equation k) ||
            s.cfg.equations[j].b.names (.equation k)) = false) →
          t.eqn[k] = { s.eqn[k] with state := .tripped, timing := none } ∧
          (∀ j : Fin 32, j ≠ k → t.eqn[j] = s.eqn[j]) ∧
          t.pt = s.pt ∧ t.win = s.win ∧ t.grp = s.grp ∧
          ∀ o : Fin 16,
            (e.outs.getLsbD o.val = false → t.out[o] = s.out[o]) ∧
            (e.outs.getLsbD o.val = true →
              t.out[o].demanding = (s.out[o].demanding ||| (1#32 <<< k.val)) ∧
              (s.out[o].demanding = 0#32 → s.out[o].manual = false → s.out[o].pulse = none →
                 t.out[o].commanded = true))))) ∧
  (∀ (k : Fin 32) (src : TermSource) (e : TimeStamp) (s : State),
    let c := s.cfg.equations[k]
    let r := s.eqn[k]
    let named := c.a.names src || c.b.names src
    let a := if c.a.names src then s.term c.a else r.a
    let b := if c.b.names src then s.term c.b else r.b
    let cond := condOf c.func a b
    let formed := s.modEqn k fun r => { r with
      a := a, b := b, cond := cond
      cause := if r.cond = false ∧ cond = true ∧ r.state ≠ .unused then some ⟨src, e⟩ else r.cause }
    let starts (s : State) : State :=
      if c.delay = 0 then enterTripped handTrip k s
      else s.modEqn k fun r => { r with state := .timing, timing := some s.now }
    let t := takeTermChange handTrip src e k s
    (named = false → t = s) ∧
    (named = true → s.operating = false ∨ cond = r.cond → t = formed) ∧
    (named = true → s.operating = true → cond ≠ r.cond →
      (r.state = .idle → cond = true → t = starts formed) ∧
      (r.state = .timing → cond = false → t = cancelTiming k .idle .cancelCondition formed) ∧
      (r.state = .tripped → cond = false → c.hold = .follow →
        t = release handTrip k .followClear formed) ∧
      (r.state = .tripped → c.hold = .latch ∨ cond = true → t = formed) ∧
      (r.state = .unused ∨ r.state = .disarmed ∨ r.state = .blocked → t = formed)) ∧
    (blockEquation k s =
      if r.state = .idle then s.modEqn k fun r => { r with state := .blocked }
      else if r.state = .timing then cancelTiming k .blocked .cancelBlock s
      else s) ∧
    (unblockEquation k s =
      let idle := s.modEqn k fun r => { r with state := .idle }
      if r.state = .blocked then if r.cond then starts idle else idle else s)) ∧
  (∀ (k : Fin 32) (reason : TripEndReason) (dest : EquationState) (s : State),
    let c := s.cfg.equations[k]
    (enterTripped handTrip k s = handTrip k (demandBy k
      (((s.modEqn k fun r => { r with state := .tripped, timing := none }).write
        (.trip k c.outs s.eqn[k].cause)).setNews c.unit .trip))) ∧
    (release handTrip k reason s = installStaged k (handTrip k (releaseBy k
      ((s.write (.tripEnd k reason)).modEqn k fun r =>
        { r with state := c.restsIn s.un[c.unit].blocked })))) ∧
    (cancelTiming k dest reason s = installStaged k
      ((s.modEqn k fun r => { r with state := dest, timing := none }).write (.tripEnd k reason))) ∧
    (s.eqn[k].staged = none → installStaged k s = s) ∧
    (∀ x : EquationRecord, s.eqn[k].staged = some x →
      let t := s.setCfg { s.cfg with equations := s.cfg.equations.set k.val x k.isLt }
      installStaged k s = t.modEqn k fun _ => s.installed x) ∧
    (handTrip k s = each 32 (fun j s' =>
      if k < j then takeTermChange handTrip (.equation k) s.stamp j s' else s') s) ∧
    (∀ o : Fin 16,
      let x := s.out[o]
      let oc := s.cfg.outputs[o]
      (demandBy k s).out[o] =
        (if c.outs.getLsbD o.val then
          x.demandedBy oc s.operating (x.demanding ||| (1#32 <<< k.val)) x.manual s.now else x) ∧
      (releaseBy k s).out[o] =
        (if x.demanding.getLsbD k.val then
          x.demandedBy oc s.operating (x.demanding &&& ~~~(1#32 <<< k.val)) x.manual s.now else x)) ∧
    { demandBy k s with out := s.out } = s ∧ { releaseBy k s with out := s.out } = s) ∧
  ∀ (src : TermSource) (e : TimeStamp) (u : Fin 9) (blocked : Bool) (s : State),
    handTerm src e s = each 32 (fun k => logged (takeTermChange handTrip src e k)) s ∧
    tripUnit blocked u s =
      if s.operating = true then
        each 32 (fun k s' =>
          if s'.cfg.equations[k].unit = u then
            logged (fun s => if blocked then blockEquation k s else unblockEquation k s) s'
          else s') s
      else s

/-- A requested test ends when its seconds have run (R96), a chime after 1000 ms (R99), and a pulse at the
end of its timer, its output de-energized and its verify timer started where its readback is PRESENT and
the commanded state changed (R128, R130); nothing else changes. -/
def Obligations.TestsChimesAndPulsesEnd : Prop :=
  (∀ (p : Fin 4) (s : State),
    (∀ x : RequestedTest, s.pan[p].test = some x →
      exec (.requestedTestExpiry p) s =
        if x.start + 10000 * x.seconds ≤ s.now then .next (s.modPan p fun r => { r with test := none })
        else .next s) ∧
    (s.pan[p].test = none → exec (.requestedTestExpiry p) s = .next s) ∧
    (∀ b : Nat, s.pan[p].horn = .chime b →
      exec (.chimeEnd p) s =
        if b + 10000 ≤ s.now then .next (s.modPan p fun r => { r with horn := .silent }) else .next s) ∧
    ((∀ b : Nat, s.pan[p].horn ≠ .chime b) → exec (.chimeEnd p) s = .next s)) ∧
  ∀ (o : Fin 16) (s : State),
    let c := s.cfg.outputs[o]
    (s.pulseDue o = true ↔
      ∃ x : Timer, s.out[o].pulse = some x ∧ x.start + x.dur ≤ s.now) ∧
    (s.pulseDue o = false → exec (.pulseExpiry o) s = .next s) ∧
    (s.pulseDue o = true →
      exec (.pulseExpiry o) s = .next (s.modOut o fun r =>
        { r with
          pulse := none
          commanded := false
          verify :=
            if r.commanded then if c.readback then some ⟨s.now, c.verify * 10⟩ else none
            else r.verify }))

/-- At the expiry of the verify timer, and at a change of readback while that timer is stopped, the
readback of an output whose readback is PRESENT is compared with its commanded state; a first
disagreement sets the fault flag, writes the OUTPUT record, sets the FAULT news of the output's unit and
makes point 262 ABNORMAL (R130, R131). -/
def Obligations.ReadbackIsVerified : Prop :=
  ∀ (o : Fin 16) (s : State), s.systemLaw →
    let c := s.cfg.outputs[o]
    let r := s.out[o]
    let faults (t : State) : Prop := t.out[o].fault = true ∧ t.news[c.unit].fault = true ∧
      t.pt[sysPoint 6].qual = .abnormal ∧ (s.room 1 → s.records t 0 s.stamp (.output o .fault))
    (s.verifyDue o = true ↔ ∃ x : Timer, r.verify = some x ∧ x.start + x.dur ≤ s.now) ∧
    (s.verifyDue o = false → exec (.verifyExpiry o) s = .next s) ∧
    (s.verifyDue o = true →
      (c.readback = false ∨ r.readback = r.commanded ∨ r.fault = true →
        exec (.verifyExpiry o) s = .next (s.modOut o fun r => { r with verify := none })) ∧
      (c.readback = true → r.readback ≠ r.commanded → r.fault = false →
        ∃ t : State, exec (.verifyExpiry o) s = .next t ∧ faults t)) ∧
    ∀ level : Bool,
      (r.readback = level → exec (.readbackChange o level) s = .next s) ∧
      (r.readback ≠ level →
        (r.verify.isSome = true ∨ c.readback = false ∨ level = r.commanded ∨ r.fault = true →
          exec (.readbackChange o level) s =
            .next (s.modOut o fun r => { r with readback := level })) ∧
        (r.verify = none → c.readback = true → level ≠ r.commanded → r.fault = false →
          ∃ t : State, exec (.readbackChange o level) s = .next t ∧ t.out[o].readback = level ∧
            faults t))

/-! ### The hall clock -/

/-- A minute pulse is ignored while the clock is UNSET or the pulse disabled; else the snap arithmetic of
R140 forms its error, new time and step, and it is accepted when the error is not greater than the sync
window (the clock LOCKED at the new time, the watch started, a CLOCK record where the step is not 0) and
rejected otherwise (the clock FREE at its time, the watch stopped, a CLOCK record of step 0). -/
def Obligations.MinutePulseSnaps : Prop :=
  ∀ s : State, s.systemLaw →
    let T := s.clock.stamp.dayTime
    let r := T % 600000
    let e := if r < 300000 then r else 600000 - r
    let step : Int := if r < 300000 then -(r : Int) else (e : Int)
    let new : TimeStamp :=
      if r < 300000 then ⟨s.clock.stamp.day, T - r⟩
      else if T + e < 864000000 then ⟨s.clock.stamp.day, T + e⟩ else ⟨s.clock.stamp.day + 1, 0⟩
    (s.clock.state = .unset ∨ s.cfg.settings.minutePulse = false → exec .minutePulse s = .next s) ∧
    (s.clock.state ≠ .unset → s.cfg.settings.minutePulse = true →
      ∃ t : State, exec .minutePulse s = .next t ∧
        (e ≤ s.cfg.settings.syncWindow →
          t.clock = ⟨new, .locked, some s.now⟩ ∧ t.pt[sysPoint 4].qual = .normal ∧
          (s.room 1 → step ≠ 0 → s.records t 0 new (.clock step .snap .locked))) ∧
        (s.cfg.settings.syncWindow < e →
          t.clock = ⟨s.clock.stamp, .free, none⟩ ∧ t.pt[sysPoint 4].qual = .abnormal ∧
          (s.room 1 → s.records t 0 s.stamp (.clock 0 .reject .free))))

/-- When the minute watch has run 150 s the clock becomes FREE at its time with a CLOCK record of reason
LAPSE, and point 260 is ABNORMAL where the pulse is enabled (R143). When the silence timer has run its
timeout it stops and point 265 is ABNORMAL (R162). -/
def Obligations.WatchAndSilenceExpire : Prop :=
  ∀ s : State,
    (s.watchDue = true ↔ ranOut s.now s.clock.watch 1500000) ∧
    (s.silenceDue = true ↔ ranOut s.now s.link.silence (10000 * s.cfg.settings.silence)) ∧
    (s.watchDue = false → exec .minuteWatchExpiry s = .next s) ∧
    (s.watchDue = true →
      ∃ t : State, exec .minuteWatchExpiry s = .next t ∧ t.clock = ⟨s.clock.stamp, .free, none⟩ ∧
        (s.cfg.settings.minutePulse = true → t.pt[sysPoint 4].qual = .abnormal) ∧
        (s.room 1 → s.records t 0 s.stamp (.clock 0 .lapse .free))) ∧
    (s.silenceDue = false → exec .silenceTimerExpiry s = .next s) ∧
    (s.silenceDue = true →
      ∃ t : State, exec .silenceTimerExpiry s = .next t ∧
        t.link = { s.link with silence := none, silent := true } ∧
        t.pt[sysPoint 9].qual = .abnormal ∧
        (s.systemLaw → s.link.silent = false → s.room 1 →
          s.records t 0 s.stamp (.point (sysPoint 9) .abnormal { system := true } s.stamp)))

/-! ### The station line -/

/-- The frame receiver takes a byte as the table of R153 gives: a byte 210 begins a frame in HUNT, a byte
is collected in RECEIVING up to the length its sixth byte gives, a length above 200 leads to SKIP, a
complete frame is judged; more than 3 ms of silence ends a reception (a byte that comes after it is
taken in HUNT: log entry 23). A complete frame acts as its judgement under R154 says, with the receiver in HUNT:
one that is dropped leaves it there and does nothing else, a broadcast that is not taken is a valid frame (R162),
and a SET_TIME, a request of a known kind and one of an unknown kind act as their commands do (R155; that the
bytes of a request and its command act alike is log entry 3). -/
def Obligations.LineBytesAreCollected : Prop :=
  (∀ (b : Byte) (s : State),
    let to_ (r : Receiver) : State := s.setLink { s.link with receiver := r }
    let hunt (s : State) : Host.Outcome State Fault Refusal :=
      if b = 210#8 then .next (s.setLink { s.link with receiver := .receiving [b] s.now })
      else .next (s.setLink { s.link with receiver := .hunt })
    (s.link.receiver = .hunt →
      exec (.stationLinkByte b) s = hunt s ∧ exec .interByteSilence s = .next s) ∧
    (∀ f : List Byte, s.link.receiver = .replying f →
      exec (.stationLinkByte b) s = .next s ∧ exec .interByteSilence s = .next s) ∧
    (∀ last : Nat, s.link.receiver = .skip last →
      (s.now ≤ last + 30 → exec (.stationLinkByte b) s = .next (to_ (.skip s.now)) ∧
        exec .interByteSilence s = .next s) ∧
      (last + 30 < s.now → exec (.stationLinkByte b) s = hunt s ∧
        exec .interByteSilence s = .next (to_ .hunt))) ∧
    (∀ (bs : List Byte) (last : Nat), s.link.receiver = .receiving bs last →
      let all := bs ++ [b]
      (last + 30 < s.now → exec (.stationLinkByte b) s = hunt s ∧
        exec .interByteSilence s = .next (to_ .hunt)) ∧
      (s.now ≤ last + 30 → exec .interByteSilence s = .next s ∧
        (all.length < 6 → exec (.stationLinkByte b) s = .next (to_ (.receiving all s.now))) ∧
        (all.length = 6 → 200 < b.toNat →
          exec (.stationLinkByte b) s = .next (to_ (.skip s.now))) ∧
        (6 ≤ all.length → all.length < 8 + (all.getD 5 0#8).toNat → (all.getD 5 0#8).toNat ≤ 200 →
          exec (.stationLinkByte b) s = .next (to_ (.receiving all s.now))) ∧
        (6 ≤ all.length → all.length = 8 + (all.getD 5 0#8).toNat → (all.getD 5 0#8).toNat ≤ 200 →
          exec (.stationLinkByte b) s = .next (takeFrame all s))))) ∧
  ∀ (f : List Byte) (s : State),
    let hunting := s.setLink { s.link with receiver := .hunt }
    match judgeFrame s.link.station.toNat f with
    | .dropped => takeFrame f s = hunting
    | .broadcast => takeFrame f s = validFrame hunting
    | .broadcastTime r => exec (.setTime true r) hunting = .next (takeFrame f s)
    | .request kind r =>
      (∀ (c : Instr) (h : Handler), c.request = some (h, r) → h.kind = kind →
        exec c hunting = .next (takeFrame f s)) ∧
      ((∀ (c : Instr) (h : Handler) (r' : Request), c.request = some (h, r') → h.kind ≠ kind) →
        exec (.unknownRequestKind (byteOf kind) r) hunting = .next (takeFrame f s))

/-- A complete frame that is no valid frame is discarded and the receiver hunts; a valid broadcast that
is not a SET_TIME only restarts the silence timer and ends a silence, with point 265 to NORMAL (R162). The
last byte of a reply returns the receiver to HUNT at the configured speed (R154, R153, R163). (That an
ill-formed frame, one that is to be taken, and one that comes while none is listened for change nothing
are the model's choices, log entries 24, 27 and 3.) A frame is listened for but while REPLYING and in SKIP
before more than 3 ms of silence, and a station whose straps read 0 has no number (R153, R154). -/
def Obligations.DiscardsAndReplyEnd : Prop :=
  (∀ f : List Byte, frameWf f = true ↔
    rd8 f 0 = 210 ∧ 8 ≤ f.length ∧ rd8 f 5 ≤ 200 ∧ f.length = 8 + rd8 f 5) ∧
  ∀ s : State,
    (s.listening = true ↔ s.link.receiver = .hunt ∨
      (∃ (bs : List Byte) (last : Nat), s.link.receiver = .receiving bs last) ∨
      ∃ last : Nat, s.link.receiver = .skip last ∧ last + 30 < s.now) ∧
    (s.addressed = true ↔ s.link.station ≠ 0) ∧
    (∀ f : List Byte, frameWf f = true → s.listening = true →
      (judgeFrame s.link.station.toNat f = .dropped →
        exec (.frameDiscard f) s = .next (s.setLink { s.link with receiver := .hunt })) ∧
      (judgeFrame s.link.station.toNat f = .broadcast → s.systemLaw → s.link.silent = false →
        exec (.frameDiscard f) s =
          .next (s.setLink { s.link with
            receiver := .hunt, silent := false
            silence := if s.cfg.settings.silence = 0 then none else some s.now })) ∧
      (judgeFrame s.link.station.toNat f = .broadcast → s.systemLaw → s.link.silent = true →
        ∃ t : State, exec (.frameDiscard f) s = .next t ∧
          t.link = { s.link with
            receiver := .hunt, silent := false
            silence := if s.cfg.settings.silence = 0 then none else some s.now } ∧
          t.pt[sysPoint 9].qual = .normal ∧
          (s.room 1 → s.records t 0 s.stamp
            (.point (sysPoint 9) .normal { system := true } s.stamp)))) ∧
    (∀ f : List Byte, frameWf f = false ∨ s.listening = false ∨
      (∃ (k : Nat) (r : Request), judgeFrame s.link.station.toNat f = .request k r) ∨
      (∃ r : Request, judgeFrame s.link.station.toNat f = .broadcastTime r) →
        exec (.frameDiscard f) s = .next s) ∧
    (∀ f : List Byte, s.link.receiver = .replying f →
      exec .replySent s = .next (s.setLink { s.link with
        receiver := .hunt, speed := s.cfg.settings.speed })) ∧
    ((∀ f : List Byte, s.link.receiver ≠ .replying f) → exec .replySent s = .next s)

/-- The checks of R156 before the owner's, in their order, for every request and for an unknown kind:
each refusal carries its result code alone and changes nothing but the receiver and the silence
timer. A valid frame first restarts the silence timer and ends a silence, with point 265 to NORMAL, before
the request is judged (R162): a request that comes in a silence acts as it acts on the state so left. A
reply changes the receiver alone, and its selection carries the nine unit flags alone (R173; log
entry 34). Each kind has the code and the body lengths of 11 section 11.2; it is permitted in the service states
and the settle that R156 check 4 and R166 give; and the PUT requests and SAVE alone may be refused BUSY. -/
def Obligations.RequestChecksInOrder : Prop :=
  let unknown (k : Byte) : Prop := k.toNat < 128 ∧
    ∀ (c : Instr) (x : Asked), c.asked = some x → x.kind ≠ k.toNat
  (∀ s : State, s.hears → s.systemLaw →
    (∀ (k : Byte) (r : Request), unknown k →
      exec (.unknownRequestKind k r) s = .next (sendReply k.toNat r.sel .kind [] s.heard)) ∧
    ∀ (c : Instr) (h : Handler) (r : Request), c.request = some (h, r) →
      let refused (code : ResultCode) : Prop :=
        exec c s = .next (sendReply h.kind r.sel code [] s.heard)
      (h.lenOk r.body.length = false → refused .length) ∧
      (h.lenOk r.body.length = true → 512 ≤ r.sel.toNat → refused .select) ∧
      (h.lenOk r.body.length = true → r.sel.toNat < 512 → h.gate s = false → refused .state) ∧
      (h.lenOk r.body.length = true → r.sel.toNat < 512 → h.gate s = true → h.put = true →
        s.store.job.isSome = true → refused .busy)) ∧
  (∀ s : State, s.systemLaw → s.listening = true →
    let q := validFrame s
    q.link = { s.link with
      silence := if s.cfg.settings.silence = 0 then none else some s.now, silent := false } ∧
    q.pt[sysPoint 9].qual = .normal ∧ q.systemLaw ∧
    (s.link.silent = false → q = s.heard) ∧
    (s.link.silent = true → s.room 1 →
      s.records q 0 s.stamp (.point (sysPoint 9) .normal { system := true } s.stamp)) ∧
    (∀ r : Request, exec (.setTime true r) s = exec (.setTime true r) q) ∧
    (s.addressed = true → q.hears ∧
      (∀ (k : Byte) (r : Request), unknown k →
        exec (.unknownRequestKind k r) s = exec (.unknownRequestKind k r) q) ∧
      ∀ (c : Instr) (h : Handler) (r : Request), c.request = some (h, r) →
        exec c s = exec c q)) ∧
  (∀ (c : Instr) (h : Handler) (r : Request), c.request = some (h, r) →
    (h.put = true ↔ c.puts = true ∨ c = .save r) ∧
    ∃ x : Asked, c.asked = some x ∧ h.kind = x.kind ∧
      (∀ n : Nat, h.lenOk n = true ↔ x.shortest ≤ n ∧ n ≤ x.longest) ∧
      ∀ s : State, h.gate s = true ↔ x.permit.holds s) ∧
  (∀ s : State, s.operating = true ↔ s.service ≠ .unconfigured ∧ s.settle = none) ∧
  [ResultCode.ok, .kind, .length, .select, .state, .busy, .range, .full, .conflict, .order, .present,
    .absent].map ResultCode.code = [0, 1, 2, 3, 4, 5, 6, 7, 8, 9, 10, 11] ∧
  ∀ (kind : Nat) (sel : Word) (code : ResultCode) (data : List Byte) (s : State),
    sendReply kind sel code data s = s.setLink { s.link with
      receiver := .replying (frameOf s.link.station.toNat (kind + 128) (sel &&& 511#16)
        (byteOf code.code :: data)) }

/-! ### Reads -/

/-- READ_POINTS, READ_WINDOWS, READ_GROUPS and READ_EQUATIONS reply with the request's body and the
entries of the items it names in ascending number, READ_OUTPUTS with every output, READ_CLOCK with the
clock; nothing but the reply and the silence timer changes; a range that is not within the table is
refused RANGE. The fields of each entry stand at the offsets, and their values have the codes, that 11
sections 11.1 and 11.2 give, every remaining time rounded up and saturated, and what is absent is 0
(R173). -/
def Obligations.ReadsReplyWithEntries : Prop :=
  (∀ (r : Request) (s : State), s.hears → s.systemLaw → r.sel.toNat < 512 →
    let sent (kind : Nat) (code : ResultCode) (data : List Byte) : Host.Outcome State Fault Refusal :=
      .next (sendReply kind r.sel code data s.heard)
    let b := r.body
    (b.length = 3 →
      let first := rd16 b 0
      let count := rd8 b 2
      exec (.readPoints r) s =
        if 1 ≤ count ∧ count ≤ 16 ∧ first + count ≤ 268 then
          sent 0x02 .ok (b ++ ((List.finRange 268).filter fun p =>
            first ≤ p.val && p.val < first + count).flatMap s.pointEntry)
        else sent 0x02 .range []) ∧
    (b.length = 2 →
      let first := rd8 b 0
      let count := rd8 b 1
      exec (.readWindows r) s =
        (if 1 ≤ count ∧ count ≤ 48 ∧ first + count ≤ 192 then
          sent 0x03 .ok (b ++ ((List.finRange 192).filter fun w =>
            first ≤ w.val && w.val < first + count).flatMap s.windowEntry)
        else sent 0x03 .range []) ∧
      exec (.readGroups r) s =
        (if 1 ≤ count ∧ count ≤ 8 ∧ first + count ≤ 16 then
          sent 0x04 .ok (b ++ ((List.finRange 16).filter fun g =>
            first ≤ g.val && g.val < first + count).flatMap s.groupEntry)
        else sent 0x04 .range []) ∧
      exec (.readEquations r) s =
        (if 1 ≤ count ∧ count ≤ 8 ∧ first + count ≤ 32 then
          sent 0x05 .ok (b ++ ((List.finRange 32).filter fun k =>
            first ≤ k.val && k.val < first + count).flatMap s.equationEntry)
        else sent 0x05 .range [])) ∧
    (b = [] →
      exec (.readOutputs r) s = sent 0x06 .ok ((List.finRange 16).flatMap s.outputEntry) ∧
      exec (.readClock r) s = sent 0x08 .ok s.clockRecord)) ∧
  (∀ (s : State) (p : Fin 268),
    let e := s.pointEntry p
    let r := s.pt[p]
    e.length = 11 ∧ rd8 e 0 = s.cfg.points[p].kind.code ∧
    bitAt e 1 0 = r.raw ∧ bitAt e 1 1 = (r.qual == .abnormal) ∧
    bitAt e 1 2 = (s.effective p == .abnormal) ∧ bitAt e 1 3 = (s.forces.any fun x => x.point == p) ∧
    bitAt e 1 4 = (s.forcedValue p == some .abnormal) ∧ bitAt e 1 5 = r.chattering ∧
    bitAt e 1 6 = r.debounce.isSome ∧ bitAt e 1 7 = r.active ∧
    rd8 e 2 = min 255 r.score ∧ rd16 e 3 = min 65535 r.suppressed ∧ holdsTime e 5 r.lastEdge) ∧
  (∀ (s : State) (w : Fin 192),
    let e := s.windowEntry w
    let c := s.cfg.windows[w]
    let feeding := s.cfg.contributors w
    e.length = 4 ∧ rd8 e 0 % 4 = c.seq.code ∧ rd8 e 0 / 4 % 4 + 1 = c.cls.code ∧
    rd8 e 0 / 16 % 4 = s.win[w].code ∧ bitAt e 0 6 = s.condition w ∧ bitAt e 0 7 = s.marker w ∧
    rd8 e 1 = (s.chatterIndication w).toNat ∧
    (feeding.length ≤ 8 → rd8 e 2 % 16 = feeding.length ∧
      rd8 e 2 / 16 = feeding.countP fun p => s.pt[p].active) ∧
    (∀ p : Fin 268, p ∈ feeding ↔ s.cfg.points[p].feeds w) ∧ feeding.Nodup ∧
    e[3]? = some (s.lampCode w)) ∧
  (∀ (s : State) (g : Fin 16),
    let e := s.groupEntry g
    let r := s.grp[g]
    e.length = 21 ∧ rd8 e 0 = r.state.code ∧ (r.firstOut.length ≤ 4 → rd8 e 1 = r.firstOut.length) ∧
    (∀ i : Fin 4, rd16 e (2 + 2 * i.val) = ((r.firstOut[i.val]?).map Fin.val).getD 0) ∧
    holdsTime e 10 (r.stamp.getD ⟨0, 0⟩) ∧ rd8 e 16 = min 255 r.subsequent ∧
    rd8 e 17 = r.overfull.toNat ∧ rd8 e 18 = min 255 (remainingMs s.now r.timer) ∧
    rd8 e 19 = s.cfg.groups[g].resolve % 256 ∧ rd8 e 20 = panelCode s.cfg.groups[g].home) ∧
  (∀ (s : State) (k : Fin 32),
    let e := s.equationEntry k
    let r := s.eqn[k]
    e.length = 14 ∧ rd8 e 0 = r.state.code ∧
    rd8 e 1 = r.a.toNat + 2 * r.b.toNat + 4 * r.cond.toNat ∧
    rd8 e 2 = r.staged.isSome.toNat + 2 * r.overwrite.toNat ∧
    rd16 e 3 = (if r.state = .timing then
      min 65535 (remaining s.now 10 r.timing (10 * s.cfg.equations[k].delay)) else 0) ∧
    match r.cause with
    | none => e.drop 5 = List.replicate 9 0#8
    | some c => holdsTime e 8 c.time ∧ match c.source with
      | .point p => rd8 e 5 = 1 ∧ rd16 e 6 = p.val
      | .equation j => rd8 e 5 = 2 ∧ rd16 e 6 = j.val
      | .mode u => rd8 e 5 = 3 ∧ rd16 e 6 = u.val) ∧
  (∀ (s : State) (o : Fin 16),
    let e := s.outputEntry o
    let r := s.out[o]
    e.length = 9 ∧ rd8 e 0 = s.cfg.outputs[o].kind.code ∧
    rd8 e 1 = r.manual.toNat + 2 * r.commanded.toNat + 4 * r.readback.toNat + 8 * r.fault.toNat ∧
    rd32 e 2 = r.demanding.toNat ∧ rd16 e 6 = min 65535 (remainingMs s.now r.pulse) ∧
    rd8 e 8 = min 255 (remainingMs s.now r.verify)) ∧
  (∀ s : State,
    let e := s.clockRecord
    e.length = 11 ∧ holdsTime e 0 s.stamp ∧ rd8 e 6 = s.clock.state.code ∧
    rd8 e 7 = min 255 (remaining s.now 10000 s.clock.watch 1500000) ∧
    rd8 e 8 = s.cfg.settings.minutePulse.toNat ∧ rd16 e 9 = s.cfg.settings.syncWindow % 65536) ∧
  [PointState.normal, .abnormal].map PointState.code = [0, 1] ∧
  [PointKind.alarm, .status, .mode, .key, .spare, .system].map PointKind.code = [0, 1, 2, 3, 4, 5] ∧
  [Mode.stopped, .generate, .pump, .condense, .changeover, .common].map Mode.code =
    [0, 1, 2, 3, 4, 5] ∧
  [SeqType.seqF, .seqA, .seqN, .seqS].map SeqType.code = [0, 1, 2, 3] ∧
  [WindowClass.c1, .c2, .c3, .c4].map WindowClass.code = [1, 2, 3, 4] ∧
  [WindowState.quiet, .alert, .held, .returned].map WindowState.code = [0, 1, 2, 3] ∧
  [Colour.white, .amber, .red].map Colour.code = [0, 1, 2] ∧
  [Pattern.off, .steady, .fast, .slow, .first, .wink].map Pattern.code = [0, 1, 2, 3, 4, 5] ∧
  [GroupState.armed, .settling, .captured].map GroupState.code = [0, 1, 2] ∧
  [EquationState.unused, .disarmed, .idle, .timing, .tripped, .blocked].map EquationState.code =
    [0, 1, 2, 3, 4, 5] ∧
  [OutputKind.sustained, .pulse].map OutputKind.code = [0, 1] ∧
  [ClockState.unset, .free, .locked].map ClockState.code = [0, 1, 2] ∧
  panelCode none = 0 ∧ ∀ p : Fin 4, panelCode (some p) = p.val + 1

/-- Each GET replies with the configured record of the item it names, GET_PANEL and GET_EQUATION with
the runtime fields that R80 and R108 name after it; nothing but the reply and the silence timer changes;
an item that does not exist is refused RANGE. The fields of each record stand at the offsets, and their
values have the codes, that 11 sections 11.2 and 11.3 give; what is absent, and a parameter that a term's
kind does not use, is 0 (R173, R174). (That no panel number stands before the record of a panel is log
entry 17.) -/
def Obligations.GetsReplyWithRecords : Prop :=
  (∀ (r : Request) (s : State), s.hears → s.systemLaw → r.sel.toNat < 512 →
    let sent (kind : Nat) (code : ResultCode) (data : List Byte) : Host.Outcome State Fault Refusal :=
      .next (sendReply kind r.sel code data s.heard)
    let b := r.body
    (b.length = 2 →
      (∀ p : Fin 268, rd16 b 0 = p.val →
        exec (.getPoint r) s = sent 0x31 .ok (b ++ s.cfg.points[p].bytes)) ∧
      (268 ≤ rd16 b 0 → exec (.getPoint r) s = sent 0x31 .range [])) ∧
    (b.length = 1 →
      let x := rd8 b 0
      (∀ u : Fin 9, x = u.val → exec (.getUnit r) s = sent 0x33 .ok (b ++ s.cfg.units[u].bytes)) ∧
      (9 ≤ x → exec (.getUnit r) s = sent 0x33 .range []) ∧
      (∀ w : Fin 192, x = w.val →
        exec (.getWindow r) s = sent 0x35 .ok (b ++ s.cfg.windows[w].bytes)) ∧
      (192 ≤ x → exec (.getWindow r) s = sent 0x35 .range []) ∧
      (∀ p : Fin 4, x = p.val + 1 →
        exec (.getPanel r) s = sent 0x37 .ok (s.cfg.panels[p].bytes ++ s.panelRuntime p)) ∧
      (x = 0 ∨ 5 ≤ x → exec (.getPanel r) s = sent 0x37 .range []) ∧
      (∀ g : Fin 16, x = g.val → exec (.getGroup r) s = sent 0x39 .ok (b ++ s.cfg.groups[g].bytes)) ∧
      (16 ≤ x → exec (.getGroup r) s = sent 0x39 .range []) ∧
      (∀ k : Fin 32, x = k.val → exec (.getEquation r) s =
        sent 0x3B .ok (b ++ (s.cfg.equations[k].bytes ++ [byteOf s.eqn[k].pendingNat] ++
          stagedBytes s.eqn[k].staged ++ [byteOf s.eqn[k].state.code] ++
          le16 (if s.eqn[k].state = .timing then
            min 65535 (remaining s.now 10 s.eqn[k].timing (10 * s.cfg.equations[k].delay)) else 0)))) ∧
      (32 ≤ x → exec (.getEquation r) s = sent 0x3B .range []) ∧
      (∀ o : Fin 16, x = o.val →
        exec (.getOutput r) s = sent 0x3D .ok (b ++ s.cfg.outputs[o].bytes)) ∧
      (16 ≤ x → exec (.getOutput r) s = sent 0x3D .range [])) ∧
    (b = [] → exec (.getSettings r) s = sent 0x3F .ok s.cfg.settings.bytes)) ∧
  (∀ c : PointConfig,
    let b := c.bytes
    b.length = 10 ∧ rd8 b 0 = c.kind.code ∧ rd8 b 1 = c.unit.val ∧ rd8 b 2 = c.sense.code ∧
    rd8 b 3 = c.debounce % 256 ∧ rd8 b 4 = c.weight % 256 ∧ rd8 b 5 = c.threshold % 256 ∧
    rd8 b 6 = c.mask.toNat ∧ rd8 b 7 = optCode c.window ∧ rd8 b 8 = optCode c.group ∧
    rd8 b 9 = c.logging.toNat) ∧
  (∀ c : UnitConfig,
    let b := c.bytes
    b.length = 10 ∧ rd16 b 0 = pointCode c.run ∧ rd16 b 2 = pointCode c.pump ∧
    rd16 b 4 = pointCode c.cond ∧ rd16 b 6 = c.settle % 65536 ∧ rd16 b 8 = pointCode c.key) ∧
  (∀ c : WindowConfig,
    let b := c.bytes
    b.length = 4 ∧ rd8 b 0 = c.seq.code ∧ rd8 b 1 = c.cls.code ∧ rd8 b 2 = c.colour.code ∧
    rd8 b 3 = c.ringback.toNat) ∧
  (∀ c : PanelConfig,
    let b := c.bytes
    rd8 b 0 = c.enabled.toNat ∧ rd8 b 1 = c.brightness % 256 ∧ rd8 b 2 = c.positions.length % 256 ∧
    (b.drop 3).map BitVec.toNat = c.positions.map Fin.val) ∧
  (∀ c : GroupConfig,
    let b := c.bytes
    b.length = 2 ∧ rd8 b 0 = c.resolve % 256 ∧ rd8 b 1 = panelCode c.home) ∧
  (∀ x : Term,
    let b := x.bytes
    b.length = 4 ∧ TermPut b 0 x ∧ ((∀ u m, x ≠ .mode u m) → rd8 b 3 = 0)) ∧
  (∀ c : EquationRecord,
    let b := c.bytes
    b.length = 17 ∧ rd8 b 0 = c.inUse.toNat ∧ rd8 b 1 = c.unit.val ∧ TermPut b 2 c.a ∧
    TermPut b 6 c.b ∧ (b.drop 2).take 4 = c.a.bytes ∧ (b.drop 6).take 4 = c.b.bytes ∧
    rd8 b 10 = c.func.val ∧ rd16 b 11 = c.delay % 65536 ∧
    rd16 b 13 = c.outs.toNat ∧ rd8 b 15 = c.hold.code ∧ rd8 b 16 = c.after.code) ∧
  (stagedBytes none = List.replicate 17 0#8 ∧ (∀ c, stagedBytes (some c) = c.bytes) ∧
    ∀ (s : State) (k : Fin 32), s.eqn[k].pendingNat =
      s.eqn[k].staged.isSome.toNat + 2 * s.eqn[k].overwrite.toNat) ∧
  (∀ c : OutputConfig,
    let b := c.bytes
    b.length = 6 ∧ rd8 b 0 = c.kind.code ∧ rd16 b 1 = c.width % 65536 ∧ rd8 b 3 = c.verify % 256 ∧
    rd8 b 4 = c.readback.toNat ∧ rd8 b 5 = c.unit.val) ∧
  (∀ c : Settings,
    let b := c.bytes
    let e := c.enables
    b.length = 9 ∧ rd16 b 0 = c.decay % 65536 ∧ rd8 b 2 = c.speed.code ∧ rd8 b 3 = c.silence % 256 ∧
    rd8 b 4 = c.minutePulse.toNat ∧ rd16 b 5 = c.syncWindow % 65536 ∧ rd8 b 7 = c.clearMode.code ∧
    rd8 b 8 = e.alert.toNat + 2 * e.trip.toNat + 4 * e.mode.toNat + 8 * e.fault.toNat +
      16 * e.log.toNat) ∧
  (∀ (s : State) (p : Fin 4),
    let e := s.panelRuntime p
    let r := s.pan[p]
    e.length = 12 ∧ rd8 e 0 = r.link.code ∧ rd8 e 1 = r.misses % 256 ∧ rd8 e 2 = r.keys.toNat ∧
    rd8 e 3 = r.brightness % 256 ∧
    rd8 e 4 = r.calls.c1.toNat + 2 * r.calls.c2.toNat + 4 * r.calls.c3.toNat + 8 * r.calls.c4.toNat ∧
    (match r.horn with
      | .silent => rd8 e 5 = 0 ∧ rd8 e 6 = 0
      | .cadence c _ => rd8 e 5 = 1 ∧ rd8 e 6 = c.code
      | .chime _ => rd8 e 5 = 2 ∧ rd8 e 6 = 0) ∧
    rd8 e 7 = r.keyTest.toNat ∧
    match r.test with
    | none => e.drop 8 = [0#8, 0#8, 0#8, 0#8]
    | some x => rd8 e 8 = 1 ∧ rd8 e 9 = x.first % 256 ∧ rd8 e 10 = x.last % 256 ∧
      rd8 e 11 = min 255 (remaining s.now 10000 (some x.start) (10000 * x.seconds))) ∧
  [Sense.alarmOnClosed, .alarmOnOpen].map Sense.code = [0, 1] ∧
  [LinkSpeed.b9600, .b19200, .b38400, .b57600, .b115200].map LinkSpeed.code = [0, 1, 2, 3, 4] ∧
  [LinkState.disabled, .starting, .up, .lost].map LinkState.code = [0, 1, 2, 3] ∧
  [Hold.latch, .follow].map Hold.code = [0, 1] ∧
  [AfterTrip.rearm, .disarm].map AfterTrip.code = [0, 1] ∧
  [NewsClearMode.clearOnRead, .clearByRequest].map NewsClearMode.code = [0, 1] ∧
  pointCode none = 65535 ∧ (∀ p : Fin 268, pointCode (some p) = p.val) ∧
  optCode (none : Option (Fin 192)) = 255 ∧ (∀ w : Fin 192, optCode (some w) = w.val) ∧
  optCode (none : Option (Fin 16)) = 255 ∧ ∀ g : Fin 16, optCode (some g) = g.val

/-- READ_STATUS replies with the part record and a unit record for each selected unit (unit 0 where none
is selected), and under CLEAR_ON_READ clears the news flags of those units; CLEAR_NEWS clears the named
flags of the selected units and replies with what is left; nothing else changes but the reply and the
silence timer (R157, R158, R160). The fields of the two records stand at the offsets that 11 section 11.2
gives. -/
def Obligations.NewsIsReadAndCleared : Prop :=
  (∀ (r : Request) (s : State), s.hears → s.systemLaw → r.sel.toNat < 512 →
    let us : List (Fin 9) :=
      if r.sel = 0 then [0] else (List.finRange 9).filter fun u => r.sel.getLsbD u.val
    let cleared (m : Nat) (n : News) : News :=
      ⟨n.alert && !m.testBit 0, n.trip && !m.testBit 1, n.mode && !m.testBit 2,
       n.fault && !m.testBit 3⟩
    (r.body = [] →
      ∃ t : State, exec (.readStatus r) s = .next t ∧
        t.repliesWith 0x01 r.sel .ok (s.partRecord ++ us.flatMap s.unitRecord) ∧
        (∀ u : Fin 9, t.news[u] =
          if s.cfg.settings.clearMode = .clearOnRead ∧ u ∈ us then ⟨false, false, false, false⟩
          else s.news[u]) ∧
        { t with link := { t.link with receiver := s.heard.link.receiver }, news := s.news } =
          s.heard) ∧
    (r.body.length = 1 → s.settle = none →
      let m := rd8 r.body 0
      (15 < m → exec (.clearNews r) s = .next (sendReply 0x24 r.sel .range [] s.heard)) ∧
      (m ≤ 15 →
        ∃ t : State, exec (.clearNews r) s = .next t ∧
          (∀ u : Fin 9, t.news[u] = if u ∈ us then cleared m s.news[u] else s.news[u]) ∧
          t.repliesWith 0x24 r.sel .ok (us.map fun u => byteOf t.news[u].nat) ∧
          { t with link := { t.link with receiver := s.heard.link.receiver }, news := s.news } =
            s.heard))) ∧
  (∀ s : State,
    let e := s.partRecord
    e.length = 13 ∧ rd8 e 0 = s.service.code ∧ rd8 e 1 = s.settle.isSome.toNat ∧
    rd8 e 2 = s.clock.state.code ∧
    rd8 e 3 = (if s.store.job.isSome then 1 else if s.store.lastFailed then 2 else 0) ∧
    rd16 e 4 = s.log.recs.length % 65536 ∧ rd8 e 6 = s.forces.length % 256 ∧
    (∀ p : Fin 4, rd8 e (7 + p.val) = s.pan[p].link.code) ∧
    rd16 e 11 < 4096 ∧
    ∀ k : Fin 12, (rd16 e 11).testBit k.val = (s.pt[sysPoint k].qual == .abnormal)) ∧
  (∀ (s : State) (u : Fin 9),
    let e := s.unitRecord u
    let r := s.un[u]
    let n := s.news[u]
    let unitOf := fun p : Fin 268 => if p.val < 256 then s.cfg.points[p].unit else 0
    e.length = 10 ∧ rd8 e 0 = u.val ∧ rd8 e 1 = r.current.code ∧
    rd8 e 2 = (r.target.map Mode.code).getD 0 ∧
    rd16 e 3 = min 65535 (remaining s.now 10000 r.settle (10000 * s.cfg.units[u].settle)) ∧
    rd8 e 5 = r.blocked.toNat ∧
    rd8 e 6 = n.alert.toNat + 2 * n.trip.toNat + 4 * n.mode.toNat + 8 * n.fault.toNat ∧
    rd16 e 7 = (List.finRange 268).countP (fun p => s.pt[p].active && unitOf p == u) ∧
    rd8 e 9 = (List.finRange 32).countP fun k =>
      s.eqn[k].state == .tripped && s.cfg.equations[k].unit == u) ∧
  [Service.unconfigured, .commissioning, .inService].map Service.code = [0, 1, 2]

/-- READ_EVENTS releases the oldest records, up to its count and never a newest GAP record, and replies with
the numbers released and held and the oldest records held, as many as fit whole in 195 bytes: the first that
does not fit ends them. A log that was not full changes in nothing else; a full log that is released leaves
the held records that are no GAP record in their order, and point 261 standing as the log (R148 to R150). A
record that fills the log is replaced by a GAP record of lost count 2, in which the record of point 261 is
counted, and point 261 is ABNORMAL there and then (R147, R148); a loss raises the lost count of the newest GAP
record by one, up to 65535, makes its last lost time the present one, and changes nothing else; an effect
whose records have done so hands the point's change to its window, its group and the equations next (R11, R12;
where Trip Logic or a manual demand wrote the record, and where what takes the point's going NORMAL fills the
log again, log entry 4). The head and the body of each record stand as 11 section 11.4 lays them out. -/
def Obligations.ReadEventsReleasesOldest : Prop :=
  (∀ (b : RecordBody) (s : State), s.log.law → s.systemLaw →
    (s.log.recs.length ≤ 1022 →
      s.write b = { s with log := ⟨s.log.recs ++ [⟨s.log.next, s.stamp, b⟩], s.log.next + 1⟩ }) ∧
    (s.log.recs.length = 1023 → s.log.newestIsGap = false →
      let t := s.write b
      t.log = ⟨s.log.recs ++ [⟨s.log.next, s.stamp, .gap 2 s.stamp s.stamp⟩], s.log.next + 1⟩ ∧
      t.log.full = true ∧
      t.pt[sysPoint 5] =
        { s.pt[sysPoint 5] with raw := true, qual := .abnormal, lastEdge := s.stamp } ∧
      (∀ p : Fin 268, p ≠ sysPoint 5 → t.pt[p] = s.pt[p]) ∧
      { t with log := s.log, pt := s.pt } = s ∧ t.systemLaw) ∧
    (s.log.newestIsGap = true → 1023 ≤ s.log.recs.length →
      s.write b = { s with log := s.log.countLoss s.stamp })) ∧
  (∀ (n : Nat) (rs : List LogRecord),
    let size (xs : List LogRecord) : Nat := (xs.map fun x => x.bytes.length).sum
    let k := (fitting n rs).length
    fitting n rs = rs.take k ∧ size (rs.take k) ≤ n ∧ (k < rs.length → n < size (rs.take (k + 1)))) ∧
  (∀ (at_ : TimeStamp) (b : RecordBody) (l : EventLog),
    (l.newestIsGap = true ↔ ∃ (x : LogRecord) (n : Nat) (first last : TimeStamp),
      l.recs.getLast? = some x ∧ x.body = .gap n first last) ∧
    (l.full = true ↔ l.recs.length = 1024 ∧ l.newestIsGap = true) ∧
    (l.recs.length ≤ 1022 → l.put at_ b = ⟨l.recs ++ [⟨l.next, at_, b⟩], l.next + 1⟩) ∧
    ∀ (older : List LogRecord) (x : LogRecord) (n : Nat) (first last : TimeStamp),
      l.recs = older ++ [x] → x.body = .gap n first last →
        l.countLoss at_ =
          { l with recs := older ++ [{ x with body := .gap (min 65535 (n + 1)) first at_ }] }) ∧
  (∀ (b : RecordBody) (s : State), s.stamp = s.clock.stamp ∧
    s.put b = { s with log := s.log.put s.stamp b } ∧ s.record b = logged (fun s => s.write b) s) ∧
  (∀ (f : State → State) (s : State),
    let p := sysPoint 5
    let t := f s
    let handedOnce (a : State) : State :=
      each 32 (takeTermChange handTrip (.point p) a.stamp)
        (changeActive p .system a.stamp a.cfg.points[p].contributes a.cfg.points[p].memberOf a)
    let u := handedOnce t
    (t.pt[p].qual = s.pt[p].qual → logged f s = t) ∧
    (t.pt[p].qual ≠ s.pt[p].qual →
      logged f s = if u.pt[p].qual = t.pt[p].qual then u else handedOnce u)) ∧
  (∀ (r : Request) (s : State), s.hears → s.systemLaw → s.log.law → r.sel.toNat < 512 →
    r.body.length = 1 →
    let held := s.log.recs.length
    let k := min (rd8 r.body 0) (if s.log.newestIsGap then held - 1 else held)
    let left : EventLog := ⟨s.log.recs.drop k, s.log.next⟩
    (s.log.full = false →
      let rs := fitting 195 left.recs
      exec (.readEvents r) s =
        .next (sendReply 0x07 r.sel .ok
          ([byteOf k] ++ le16 (held - k) ++ [byteOf rs.length] ++ rs.flatMap LogRecord.bytes)
          { s.heard with log := left })) ∧
    (s.log.full = true →
      ∃ t : State, exec (.readEvents r) s = .next t ∧
        (∀ (i : Nat) (x : LogRecord), left.recs[i]? = some x → x.body.isGap = false →
          t.log.recs[i]? = some x) ∧
        t.pt[sysPoint 5].qual = (if t.log.full then .abnormal else .normal) ∧
        let rs := fitting 195 t.log.recs
        t.repliesWith 0x07 r.sel .ok
          ([byteOf k] ++ le16 t.log.recs.length ++ [byteOf rs.length] ++ rs.flatMap LogRecord.bytes))) ∧
  (∀ x : LogRecord,
    let e := x.bytes
    let laidOut (kind length : Nat) : Prop := rd8 e 0 = kind ∧ e.length = length
    rd16 e 2 = x.seq.toNat ∧ holdsTime e 4 x.stamp ∧ (e.length < 256 → rd8 e 1 = e.length) ∧
    match x.body with
    | .point p st f edge => laidOut 1 20 ∧ rd16 e 10 = p.val ∧ rd8 e 12 = st.code ∧
      rd8 e 13 = f.forced.toNat + 2 * f.startup.toNat + 4 * f.system.toNat + 8 * f.unforce.toNat ∧
      holdsTime e 14 edge
    | .chatterOn p score => laidOut 2 13 ∧ rd16 e 10 = p.val ∧ rd8 e 12 = min 255 score
    | .chatterOff p st n => laidOut 3 15 ∧ rd16 e 10 = p.val ∧ rd8 e 12 = st.code ∧
      rd16 e 13 = min 65535 n
    | .forceOn p v => laidOut 4 14 ∧ rd16 e 10 = p.val ∧ rd8 e 12 = v.code ∧ rd8 e 13 = 0
    | .forceOff p v why => laidOut 5 14 ∧ rd16 e 10 = p.val ∧ rd8 e 12 = v.code ∧
      rd8 e 13 = why.code
    | .mode u old new => laidOut 6 13 ∧ rd8 e 10 = u.val ∧ rd8 e 11 = old.code ∧ rd8 e 12 = new.code
    | .operator act source n => laidOut 7 14 ∧ rd8 e 10 = act.code ∧ rd8 e 11 = panelCode source ∧
      rd16 e 12 = min 65535 n
    | .firstOut g stamp ps => laidOut 8 (18 + 2 * ps.length) ∧ rd8 e 10 = g.val ∧
      (ps.length < 256 → rd8 e 11 = ps.length) ∧ holdsTime e 12 stamp ∧
      ∀ (i : Nat) (p : Fin 268), ps[i]? = some p → rd16 e (18 + 2 * i) = p.val
    | .trip k outs cause => laidOut 9 22 ∧ rd8 e 10 = k.val ∧ rd16 e 11 = outs.toNat ∧
      (match cause with
        | none => e.drop 13 = List.replicate 9 0#8
        | some c => holdsTime e 16 c.time ∧ match c.source with
          | .point p => rd8 e 13 = 1 ∧ rd16 e 14 = p.val
          | .equation j => rd8 e 13 = 2 ∧ rd16 e 14 = j.val
          | .mode u => rd8 e 13 = 3 ∧ rd16 e 14 = u.val)
    | .tripEnd k why => laidOut 10 12 ∧ rd8 e 10 = k.val ∧ rd8 e 11 = why.code
    | .output o event => laidOut 11 12 ∧ rd8 e 10 = o.val ∧ rd8 e 11 = event.code
    | .clock step why st => laidOut 12 16 ∧ rd32 e 10 = (step % 4294967296).toNat ∧
      rd8 e 14 = why.code ∧ rd8 e 15 = st.code
    | .gap lost first last => laidOut 13 24 ∧ rd16 e 10 = min 65535 lost ∧ holdsTime e 12 first ∧
      holdsTime e 18 last
    | .service st why => laidOut 14 12 ∧ rd8 e 10 = st.code ∧ rd8 e 11 = why.code) ∧
  [ForceOffReason.request, .expiry, .reconfig, .clear].map ForceOffReason.code = [0, 1, 2, 3] ∧
  [OperatorAction.ack, .silence, .reset, .groupReset, .lampTest, .brightness].map OperatorAction.code =
    [0, 1, 2, 3, 4, 5] ∧
  [TripEndReason.cancelCondition, .cancelBlock, .followClear, .reset, .service].map TripEndReason.code =
    [0, 1, 2, 3, 4] ∧
  [OutputEvent.fault, .faultCleared, .manualSet, .manualClear].map OutputEvent.code = [0, 1, 2, 3] ∧
  [ClockReason.set, .snap, .reject, .lapse, .disable].map ClockReason.code = [0, 1, 2, 3, 4] ∧
  [ServiceCause.request, .powerOn, .powerOnDefaults, .resetLine, .resetLineDefaults, .clearAll].map
    ServiceCause.code = [0, 1, 2, 3, 4, 5]

/-! ### Operator requests -/

/-- ACK and RESET_WINDOWS take each window of their range as R43 to R48 give and leave the others, and
reply with the number changed, which an OPERATOR record of source LINK carries where it is not 0; a range
that is not first to last within 0..191 is refused RANGE (R90 to R92). PUT_WINDOW converts the state of its
window at a change of type, with the exit from ALERT of a conversion to SEQ-S (R53, R51), and at a change of
class takes the old class from the call sets where no window in ALERT has it (R55). (Where point 264 stands
ABNORMAL already, no other change is handed on.) -/
def Obligations.WindowRequestsMoveWindows : Prop :=
  (∀ (r : Request) (s : State), s.hears → s.systemLaw → s.room 1 → s.settle = none →
    r.sel.toNat < 512 → r.body.length = 2 →
    let first := rd8 r.body 0
    let last := rd8 r.body 1
    let seq := fun w : Fin 192 => s.cfg.windows[w].seq
    let ws := (List.finRange 192).filter fun w => first ≤ w.val && w.val ≤ last
    let acks := ws.countP fun w => s.win[w] == .alert && seq w != .seqS
    let resets := ws.countP fun w => s.win[w] == .returned && seq w == .seqF
    (¬ (first ≤ last ∧ last ≤ 191) →
      exec (.ack r) s = .next (sendReply 0x10 r.sel .range [] s.heard) ∧
      exec (.resetWindows r) s = .next (sendReply 0x12 r.sel .range [] s.heard)) ∧
    (first ≤ last → last ≤ 191 →
      (∃ t : State, exec (.ack r) s = .next t ∧
        (∀ w : Fin 192, t.win[w] =
          if w ∈ ws then ackedState (seq w) s.win[w] (s.condition w) else s.win[w]) ∧
        t.repliesWith 0x10 r.sel .ok (le16 acks) ∧
        t.log = (if acks = 0 then s.log else s.log.put s.stamp (.operator .ack none acks)) ∧
        t.pt = s.pt ∧ t.grp = s.grp ∧ t.eqn = s.eqn ∧ t.out = s.out ∧ t.news = s.news) ∧
      (∃ t : State, exec (.resetWindows r) s = .next t ∧
        (∀ w : Fin 192, t.win[w] = if w ∈ ws then resetState (seq w) s.win[w] else s.win[w]) ∧
        t.repliesWith 0x12 r.sel .ok (le16 resets) ∧
        t.log = (if resets = 0 then s.log else s.log.put s.stamp (.operator .reset none resets)) ∧
        t.pt = s.pt ∧ t.grp = s.grp ∧ t.pan = s.pan ∧ t.eqn = s.eqn ∧ t.out = s.out ∧
        t.news = s.news))) ∧
  ∀ (r : Request) (s : State) (w : Fin 192) (c : WindowConfig), s.hears → s.systemLaw →
    r.sel.toNat < 512 → s.store.job = none → s.store.differs = true → r.body.length = 6 →
    rd8 r.body 0 = w.val → WindowPut s.cfg.windows[w] r.body c →
    let old := s.cfg.windows[w]
    let x := s.win[w]
    let converted : WindowState :=
      if c.seq = old.seq then x
      else if c.seq = .seqS then if s.condition w then .held else .quiet
      else if x = .returned ∧ old.seq = .seqF then .quiet
      else x
    let exits := x == .alert && c.seq == .seqS && c.seq != old.seq
    ∃ t : State, exec (.putWindow r) s = .next t ∧
      t.cfg = { s.cfg with windows := s.cfg.windows.set w.val c w.isLt } ∧
      (∀ v : Fin 192, t.win[v] = if v = w then converted else s.win[v]) ∧
      (∀ p : Fin 4,
        let alert := fun k : WindowClass => s.cfg.panels[p].positions.any fun v =>
          t.win[v] == .alert && t.cfg.windows[v].cls == k
        (w ∉ s.cfg.panels[p].positions → t.pan[p] = s.pan[p]) ∧
        (w ∈ s.cfg.panels[p].positions →
          t.pan[p] = s.pan[p].called t.pan[p].calls s.now ∧
          ∀ k : WindowClass, t.pan[p].calls.has k =
            (s.pan[p].calls.has k &&
              (if exits then alert k
               else if c.cls ≠ old.cls ∧ converted = .alert ∧ k = old.cls then alert k
               else true)))) ∧
      { t with cfg := s.cfg, win := s.win, pan := s.pan, link := s.link } = s

/-- SILENCE empties the call sets and stills the horns of the panels of its set, LAMP_TEST starts,
replaces or ends their requested tests, BRIGHTNESS sets their present brightness as clamped; the other
panels stand, and each reply carries the number changed, which an OPERATOR record of source LINK carries
where it is not 0 (R93, R94, R96). PUT_PANEL takes its panel to STARTING or DISABLED where the enabled field
changes, with the point of a LOST panel to NORMAL, takes from the call set the classes that no window in
ALERT on the new list has, and sets both brightnesses (R79). (Where point 264 stands ABNORMAL already and no
LOST panel is switched, no other change is handed on.) -/
def Obligations.PanelRequestsActOnPanels : Prop :=
  (∀ (r : Request) (s : State), s.hears → s.systemLaw → s.room 1 → s.settle = none →
    r.sel.toNat < 512 →
    let b := r.body
    let x := rd8 b 0
    let logged (t : State) (a : OperatorAction) (n : Nat) : Prop :=
      t.log = if n = 0 then s.log else s.log.put s.stamp (.operator a none n)
    (b.length = 1 →
      (15 < x → exec (.silence r) s = .next (sendReply 0x11 r.sel .range [] s.heard)) ∧
      (x ≤ 15 →
        let n := (List.finRange 4).countP fun p => x.testBit p.val && s.pan[p].calls != ClassSet.empty
        ∃ t : State, exec (.silence r) s = .next t ∧
          (∀ p : Fin 4, t.pan[p] =
            if x.testBit p.val then { s.pan[p] with calls := ClassSet.empty, horn := .silent }
            else s.pan[p]) ∧
          t.repliesWith 0x11 r.sel .ok (le16 n) ∧ logged t .silence n ∧ t.win = s.win)) ∧
    (b.length = 2 →
      let level := if rd8 b 1 = 0 then 1 else min (rd8 b 1) 8
      (15 < x → exec (.brightness r) s = .next (sendReply 0x15 r.sel .range [] s.heard)) ∧
      (x ≤ 15 →
        let n := (List.finRange 4).countP fun p => x.testBit p.val && s.pan[p].brightness != level
        ∃ t : State, exec (.brightness r) s = .next t ∧
          (∀ p : Fin 4, t.pan[p] =
            if x.testBit p.val then { s.pan[p] with brightness := level } else s.pan[p]) ∧
          t.repliesWith 0x15 r.sel .ok (le16 n) ∧ logged t .brightness n ∧ t.cfg = s.cfg)) ∧
    (b.length = 4 →
      let first := rd8 b 1
      let last := rd8 b 2
      let secs := min 60 (rd8 b 3)
      (¬ (x ≤ 15 ∧ first ≤ last ∧ last ≤ 63) →
        exec (.lampTest r) s = .next (sendReply 0x14 r.sel .range [] s.heard)) ∧
      (x ≤ 15 → first ≤ last → last ≤ 63 →
        let n := (List.finRange 4).countP fun p =>
          x.testBit p.val && (secs != 0 || s.pan[p].test.isSome)
        ∃ t : State, exec (.lampTest r) s = .next t ∧
          (∀ p : Fin 4, t.pan[p] =
            if x.testBit p.val then
              { s.pan[p] with test := if secs = 0 then none else some ⟨first, last, s.now, secs⟩ }
            else s.pan[p]) ∧
          t.repliesWith 0x14 r.sel .ok (le16 n) ∧ logged t .lampTest n ∧ t.win = s.win))) ∧
  ∀ (r : Request) (s : State) (p : Fin 4) (c : PanelConfig), s.hears → s.systemLaw →
    r.sel.toNat < 512 → s.store.job = none → 4 ≤ r.body.length → r.body.length ≤ 68 →
    rd8 r.body 0 = p.val + 1 → PanelPut r.body c → c.positions.Nodup →
    let old := s.cfg.panels[p]
    let x := s.pan[p]
    let switched : PanelRun :=
      if c.enabled = old.enabled then x
      else if c.enabled then { x with link := .starting, seen := none, misses := 0, exchange := none }
      else { x with link := .disabled, misses := 0, seen := none, keys := 0, keyTest := false,
                    exchange := none, lostFor := 0 }
    ∃ t : State, exec (.putPanel r) s = .next t ∧
      t.cfg.panels = s.cfg.panels.set p.val c p.isLt ∧
      t.pan[p].link = switched.link ∧ t.pan[p].brightness = c.brightness ∧
      (c.enabled ≠ old.enabled → x.link = .lost →
        t.pt[sysPoint (panelPoint p)].qual = .normal ∧
        (s.room 1 → s.records t 0 s.stamp
          (.point (sysPoint (panelPoint p)) .normal { system := true } s.stamp))) ∧
      (s.store.differs = true → c.enabled = old.enabled ∨ x.link ≠ .lost →
        t.pan[p] = { switched.called t.pan[p].calls s.now with brightness := c.brightness } ∧
        (∀ k : WindowClass, t.pan[p].calls.has k =
          (x.calls.has k && c.positions.any fun w =>
            s.win[w] == .alert && s.cfg.windows[w].cls == k)) ∧
        (∀ q : Fin 4, q ≠ p → t.pan[q] = s.pan[q]) ∧
        { t with cfg := s.cfg, pan := s.pan, link := s.link } = s)

/-- RESET_GROUPS re-arms each CAPTURED group of its mask and leaves the others, replies with each named
group's outcome, and writes an OPERATOR record of the number re-armed where it is not 0 (R73, R74). -/
def Obligations.ResetGroupsRearms : Prop :=
  ∀ (r : Request) (s : State), s.hears → s.systemLaw → s.room 1 → s.settle = none →
    r.sel.toNat < 512 → r.body.length = 2 →
    let named := fun g : Fin 16 => (rd16 r.body 0).testBit g.val
    let gs := (List.finRange 16).filter named
    let n := gs.countP fun g => s.grp[g].state == .captured
    let outcome : GroupState → Byte
      | .captured => 0#8
      | .settling => 4#8
      | .armed => 5#8
    ∃ t : State, exec (.resetGroups r) s = .next t ∧
      (∀ g : Fin 16, t.grp[g] =
        if named g = true ∧ s.grp[g].state = .captured then
          { s.grp[g] with state := .armed, firstOut := [], stamp := none, subsequent := 0,
                          overfull := false, timer := none }
        else s.grp[g]) ∧
      t.repliesWith 0x13 r.sel .ok
        (byteOf gs.length :: gs.flatMap fun g => [byteOf g.val, outcome s.grp[g].state]) ∧
      t.log = (if n = 0 then s.log else s.log.put s.stamp (.operator .groupReset none n)) ∧
      t.pt = s.pt ∧ t.win = s.win ∧ t.pan = s.pan ∧ t.eqn = s.eqn ∧ t.out = s.out

/-! ### Trip, force, output and clock requests -/

/-- TRIP_RESET and ARM of one equation answer as the tables of R117 and R118 give: a LATCH trip whose
condition is false is released with a TRIP_END record of reason RESET, and goes where its after-trip field
and its unit say or where its pending record puts it, its outputs released (R115, R107, R126); a DISARMED
equation whose condition is false becomes IDLE, or BLOCKED where its unit is; every other state is answered
by its outcome and left. (Where the TRIP_END record fills the log, point 261 may trip the equation again:
log entry 4.) With 255 each equation in use of the selected units is taken in ascending number,
each whole before the next, and its outcome by the same tables stands in the reply. -/
def Obligations.TripResetAndArm : Prop :=
  (∀ (r : Request) (s : State), s.hears → s.systemLaw → s.operating = true →
    r.sel.toNat < 512 → r.body.length = 1 →
    let sent (kind : Nat) (code : ResultCode) (data : List Byte) : Host.Outcome State Fault Refusal :=
      .next (sendReply kind r.sel code data s.heard)
    let x := rd8 r.body 0
    (32 ≤ x → x ≠ 255 →
      exec (.tripReset r) s = sent 0x20 .range [] ∧ exec (.arm r) s = sent 0x21 .range []) ∧
    (∀ k : Fin 32, x = k.val →
      let e := s.cfg.equations[k]
      let q := s.eqn[k]
      (q.state = .tripped → e.hold = .latch → q.cond = false →
        ∃ t : State, exec (.tripReset r) s = .next t ∧
          t.repliesWith 0x20 r.sel .ok [1#8, byteOf k.val, 0#8] ∧
          (s.room 1 → s.records t 0 s.stamp (.tripEnd k .reset)) ∧
          (t.log.full = false →
            t.eqn[k].state ≠ .tripped ∧
            (q.staged = none →
              t.eqn[k] = { q with state := e.restsIn s.un[e.unit].blocked } ∧
              t.cfg.equations[k] = e) ∧
            (∀ c : EquationRecord, q.staged = some c →
              t.eqn[k] = t.installed c ∧ t.cfg.equations[k] = c) ∧
            (∀ j : Fin 32, j < k → t.eqn[j] = s.eqn[j] ∧ t.cfg.equations[j] = s.cfg.equations[j]) ∧
            (∀ o : Fin 16, t.out[o].demanding.getLsbD k.val = false) ∧
            ((∀ j : Fin 32, k < j → (s.cfg.equations[j].a.names (.equation k) ||
                s.cfg.equations[j].b.names (.equation k)) = false) →
              (∀ j : Fin 32, j ≠ k → t.eqn[j] = s.eqn[j]) ∧
              ∀ o : Fin 16,
                let x := s.out[o]
                t.out[o] =
                  if x.demanding.getLsbD k.val then
                    x.demandedBy s.cfg.outputs[o] true (x.demanding &&& ~~~(1#32 <<< k.val)) x.manual
                      s.now
                  else x))) ∧
      (q.state = .tripped → e.hold = .follow ∨ q.cond = true →
        exec (.tripReset r) s = sent 0x20 .present [1#8, byteOf k.val, 1#8]) ∧
      (q.state ≠ .tripped → q.state ≠ .unused →
        exec (.tripReset r) s = sent 0x20 .ok [1#8, byteOf k.val, 2#8]) ∧
      (q.state = .unused → exec (.tripReset r) s = sent 0x20 .ok [1#8, byteOf k.val, 3#8]) ∧
      (q.state = .disarmed → q.cond = false →
        exec (.arm r) s = .next (sendReply 0x21 r.sel .ok [1#8, byteOf k.val, 0#8]
          (s.heard.modEqn k fun q =>
            { q with state := if s.un[e.unit].blocked then .blocked else .idle }))) ∧
      (q.state = .disarmed → q.cond = true →
        exec (.arm r) s = sent 0x21 .present [1#8, byteOf k.val, 1#8]) ∧
      (q.state ≠ .disarmed → q.state ≠ .unused →
        exec (.arm r) s = sent 0x21 .ok [1#8, byteOf k.val, 2#8]) ∧
      (q.state = .unused → exec (.arm r) s = sent 0x21 .ok [1#8, byteOf k.val, 3#8])) ∧
    (x = 255 →
      let ks : List (Fin 32) := (List.finRange 32).filter fun k =>
        let u := s.cfg.equations[k].unit
        s.cfg.equations[k].inUse && (r.sel.getLsbD u.val || r.sel == 0#16 && u == 0)
      let resets := takeEquations resetEquation ks s.heard
      let armed : Fin 32 → Nat := fun k => match s.eqn[k].state with
        | .disarmed => if s.eqn[k].cond then 1 else 0
        | .unused => 3
        | .idle | .timing | .tripped | .blocked => 2
      (∃ t : State, exec (.tripReset r) s = .next t ∧
        t.repliesWith 0x20 r.sel .ok
          (byteOf ks.length :: resets.2.flatMap fun y => [byteOf y.1.val, byteOf y.2.code]) ∧
        { t with link := s.heard.link } = resets.1) ∧
      (∃ t : State, exec (.arm r) s = .next t ∧
        t.repliesWith 0x21 r.sel .ok
          (byteOf ks.length :: ks.flatMap fun k => [byteOf k.val, byteOf (armed k)]) ∧
        (∀ k : Fin 32, t.eqn[k] =
          if ks.contains k && armed k == 0 then
            { s.eqn[k] with
              state := if s.un[s.cfg.equations[k].unit].blocked then .blocked else .idle }
          else s.eqn[k]) ∧
        { t with link := s.heard.link, eqn := s.eqn } = s.heard))) ∧
  ∀ (f : Fin 32 → State → State × Machine.Outcome) (k : Fin 32) (ks : List (Fin 32)) (s : State),
    let q := s.eqn[k]
    let first := f k s
    let rest := takeEquations f ks first.1
    takeEquations f [] s = (s, []) ∧
    takeEquations f (k :: ks) s = (rest.1, (k, first.2) :: rest.2) ∧
    (q.state = .tripped → s.cfg.equations[k].hold = .latch → q.cond = false →
      resetEquation k s = (logged (release handTrip k .reset) s, .done)) ∧
    (q.state = .tripped → s.cfg.equations[k].hold = .follow ∨ q.cond = true →
      resetEquation k s = (s, .present)) ∧
    (q.state ≠ .tripped → q.state ≠ .unused → resetEquation k s = (s, .notNeeded)) ∧
    (q.state = .unused → resetEquation k s = (s, .unused)) ∧
    Machine.Outcome.done.code = 0 ∧ Machine.Outcome.present.code = 1 ∧
    Machine.Outcome.notNeeded.code = 2 ∧ Machine.Outcome.unused.code = 3

/-- FORCE of a point of kind ALARM or STATUS places or replaces its entry with the clamped minutes, writes
FORCE_ON and makes point 263 ABNORMAL; a point number above 267 or a value that is neither NORMAL nor ABNORMAL
is refused RANGE, another kind KIND, a ninth entry FULL, in this order (R15). UNFORCE removes the entry of a
point, or every entry one after another in table order, each with its FORCE_OFF record of reason REQUEST, and is
answered ABSENT where there is none (R17, R18). The effective state of a point is its forced value while the
table holds an entry for it and its qualified state otherwise (R11). -/
def Obligations.ForceAndUnforce : Prop :=
  (∀ (p : Fin 268) (s : State),
    s.forced p = (s.forcedValue p).isSome ∧ s.effective p = (s.forcedValue p).getD s.pt[p].qual ∧
    ((∀ e ∈ s.forces, e.point ≠ p) → s.forcedValue p = none) ∧
    ((s.forces.map ForceEntry.point).Nodup → ∀ e ∈ s.forces, e.point = p →
      s.forcedValue p = some e.value)) ∧
  ∀ (r : Request) (s : State), s.hears → s.systemLaw → r.sel.toNat < 512 →
    let b := r.body
    (s.operating = true → b.length = 5 → 268 ≤ rd16 b 0 ∨ 1 < rd8 b 2 →
      exec (.force r) s = .next (sendReply 0x22 r.sel .range [] s.heard)) ∧
    (∀ (q : Fin 268) (v : PointState), s.operating = true → b.length = 5 → rd16 b 0 = q.val →
      rd8 b 2 = v.code →
      let kind := s.cfg.points[q].kind
      let minutes := if rd16 b 3 = 0 then 1 else min (rd16 b 3) 1440
      let entry : ForceEntry := ⟨q, v, s.stamp, s.now, minutes⟩
      (kind ≠ .alarm → kind ≠ .status →
        exec (.force r) s = .next (sendReply 0x22 r.sel .kind [] s.heard)) ∧
      (kind = .alarm ∨ kind = .status → 8 ≤ s.forces.length → s.forced q = false →
        exec (.force r) s = .next (sendReply 0x22 r.sel .full [] s.heard)) ∧
      (kind = .alarm ∨ kind = .status → s.forces.length < 8 ∨ s.forced q = true →
        ∃ t : State, exec (.force r) s = .next t ∧
          t.forces = (if s.forced q then s.forces.map fun x => if x.point = q then entry else x
            else s.forces ++ [entry]) ∧
          t.effective q = v ∧ t.pt[sysPoint 7].qual = .abnormal ∧
          t.repliesWith 0x22 r.sel .ok (le16 minutes ++ [byteOf t.forces.length]) ∧
          (s.room 1 → s.records t 0 s.stamp (.forceOn q v)))) ∧
    (s.settle = none → b.length = 2 →
      (268 ≤ rd16 b 0 → rd16 b 0 ≠ 65535 →
        exec (.unforce r) s = .next (sendReply 0x23 r.sel .range [] s.heard)) ∧
      (∀ q : Fin 268, rd16 b 0 = q.val → s.forced q = false →
        exec (.unforce r) s = .next (sendReply 0x23 r.sel .absent [] s.heard)) ∧
      (∀ (q : Fin 268) (v : PointState), rd16 b 0 = q.val → s.forcedValue q = some v →
        ∃ t : State, exec (.unforce r) s = .next t ∧
          t.forces = s.forces.filter (fun x => x.point ≠ q) ∧ t.forced q = false ∧
          t.repliesWith 0x23 r.sel .ok [1#8] ∧
          (s.room 1 → s.records t 0 s.stamp (.forceOff q v .request))) ∧
      (rd16 b 0 = 65535 →
        ∃ t : State, exec (.unforce r) s = .next t ∧ t.forces = [] ∧
          t.pt[sysPoint 7].qual = .normal ∧
          t.repliesWith 0x23 r.sel .ok [byteOf s.forces.length] ∧
          ((s.forces.map ForceEntry.point).Nodup → t.room 1 →
            ((t.log.recs.drop s.log.recs.length).filter LogRecord.endsForce).map (fun x => (x.stamp, x.body)) =
              s.forces.map fun e => (s.stamp, .forceOff e.point e.value .request)) ∧
          ∀ e : ForceEntry, s.forces.head? = some e → s.room 1 →
            s.records t 0 s.stamp (.forceOff e.point e.value .request)))

/-- CLEAR_FAULTS clears the fault flags of its mask but those whose readback is PRESENT and disagrees with the
commanded state when the request is taken, each with its FAULT_CLEARED record, in ascending number, then takes
point 262 after its condition, and replies with those that stay set (R132). OUTPUT_SET and OUTPUT_CLEAR, in
COMMISSIONING with no settle, set and clear the manual demands of their mask, in ascending number, each with
its record where it changes and the demand of its output formed again, and reply with all of them; a SUSTAINED
output that nothing demanded is energized by the one, and one that nothing else demands de-energized by the
other (R133; that point 261, where such a record fills the log, is handed on after the output is log entry 4).
PUT_OUTPUT acts on the commanded state at a change of kind and on the verify timer at a change of readback
(R124, R129), and leaves the other outputs. A system point whose owner's condition has changed makes its
transition: its state and edge time, its POINT record with the flag SYSTEM, its terms, its active flag (R13).
(Where point 264 stands ABNORMAL already, no other change is handed on.) -/
def Obligations.OutputRequestsAct : Prop :=
  (∀ (r : Request) (s : State), s.hears → s.systemLaw → r.sel.toNat < 512 → r.body.length = 2 →
    s.settle = none →
    let m := rd16 r.body 0
    let named := (List.finRange 16).filter fun o => m.testBit o.val
    let stays := fun o : Fin 16 => s.out[o].fault &&
      !(m.testBit o.val && !(s.cfg.outputs[o].readback && s.out[o].readback != s.out[o].commanded))
    let clears := named.filter fun o => s.out[o].fault && !stays o
    let drives (v : Bool) (o : Fin 16) (a : State) : State :=
      if a.out[o].manual = v then a
      else logged (fun a =>
        (a.modOut o fun x => x.demandedBy a.cfg.outputs[o] a.operating x.demanding v a.now).write
          (.output o (if v then .manualSet else .manualClear))) a
    (∃ t : State, exec (.clearFaults r) s = .next t ∧
      { t with link := s.heard.link } = sysFollow false 6
        (clears.foldl (fun a o =>
          (a.modOut o fun x => { x with fault := false }).record (.output o .faultCleared)) s.heard) ∧
      (s.room 16 → ∀ (i : Nat) (o : Fin 16), clears[i]? = some o →
        s.records t i s.stamp (.output o .faultCleared)) ∧
      (s.room 17 → clears ≠ [] → (∀ o : Fin 16, stays o = false) →
        s.records t clears.length s.stamp (.point (sysPoint 6) .normal { system := true } s.stamp)) ∧
      (∀ o : Fin 16, t.out[o].fault = stays o) ∧
      t.pt[sysPoint 6].qual =
        (if (List.finRange 16).any stays then .abnormal else .normal) ∧
      t.repliesWith 0x25 r.sel .ok (le16 (outputMask fun o => m.testBit o.val && stays o))) ∧
    (s.service = .commissioning →
      (∃ t : State, exec (.outputSet r) s = .next t ∧
        { t with link := s.heard.link } = named.foldl (fun a o => drives true o a) s.heard ∧
        (s.room 16 → ∀ (i : Nat) (o : Fin 16),
          (named.filter fun o => !s.out[o].manual)[i]? = some o →
            s.records t i s.stamp (.output o .manualSet)) ∧
        (∀ o : Fin 16, t.out[o].manual = (s.out[o].manual || m.testBit o.val)) ∧
        t.repliesWith 0x26 r.sel .ok
          (le16 (outputMask fun o => s.out[o].manual || m.testBit o.val)) ∧
        (s.room 16 → ∀ o : Fin 16,
          (m.testBit o.val = false → t.out[o] = s.out[o]) ∧
          (m.testBit o.val = true → s.out[o].demanding = 0#32 → s.out[o].manual = false →
            s.cfg.outputs[o].kind = .sustained → t.out[o].commanded = true))) ∧
      (∃ t : State, exec (.outputClear r) s = .next t ∧
        { t with link := s.heard.link } = named.foldl (fun a o => drives false o a) s.heard ∧
        (s.room 16 → ∀ (i : Nat) (o : Fin 16),
          (named.filter fun o => s.out[o].manual)[i]? = some o →
            s.records t i s.stamp (.output o .manualClear)) ∧
        (∀ o : Fin 16, t.out[o].manual = (s.out[o].manual && !m.testBit o.val)) ∧
        t.repliesWith 0x27 r.sel .ok
          (le16 (outputMask fun o => s.out[o].manual && !m.testBit o.val)) ∧
        (s.room 16 → ∀ o : Fin 16,
          (m.testBit o.val = false → t.out[o] = s.out[o]) ∧
          (m.testBit o.val = true → s.out[o].manual = true → s.out[o].demanding = 0#32 →
            s.cfg.outputs[o].kind = .sustained → t.out[o].commanded = false))))) ∧
  (∀ (k : Fin 12) (s : State),
    let q := sysPoint k
    let now : PointState := if s.sysCond k then .abnormal else .normal
    (s.pt[q].qual = now → sysFollow false k s = s) ∧
    (s.pt[q].qual ≠ now → k ≠ 5 → sysFollow false k s =
      evalActive q .system s.stamp (handTerm (.point q) s.stamp
        (logged (fun a => a.write (.point q now { system := true } s.stamp))
          (s.modPt q fun r => { r with raw := s.sysCond k, qual := now, lastEdge := s.stamp }))))) ∧
  (∀ f : Fin 16 → Bool, outputMask f < 65536 ∧ ∀ o : Fin 16, (outputMask f).testBit o.val = f o) ∧
  ∀ (r : Request) (s : State) (o : Fin 16) (c : OutputConfig), s.hears → s.systemLaw →
    r.sel.toNat < 512 → s.store.job = none → s.store.differs = true → r.body.length = 8 →
    rd8 r.body 0 = o.val → OutputPut s.cfg.outputs[o] r.body c →
    ∃ t : State, exec (.putOutput r) s = .next t ∧
      t.cfg = { s.cfg with outputs := s.cfg.outputs.set o.val c o.isLt } ∧
      t.out[o] = s.out[o].afterPut s.cfg.outputs[o] c s.operating s.now ∧
      (∀ q : Fin 16, q ≠ o → t.out[q] = s.out[q]) ∧
      { t with cfg := s.cfg, out := s.out, link := s.link } = s

/-- SET_TIME sets the time stamp, leaves the clock FREE with its watch stopped, and writes a CLOCK record
of reason SET at the new time, with the step between the two time stamps read as spans and saturated in
four bytes; addressed it is answered, as a broadcast it is not and the receiver hunts; a day-time of
864,000,000 or more is refused (R138). -/
def Obligations.SetTimeSetsTheClock : Prop :=
  (∀ z : Int, (leInt32 z).length = 4 ∧ rd32 (leInt32 z) 0 = (z % 4294967296).toNat) ∧
  ∀ (r : Request) (s : State), s.listening = true → s.link.silent = false → s.systemLaw →
    r.sel.toNat < 512 → r.body.length = 6 →
    let new : TimeStamp := ⟨BitVec.ofNat 16 (rd16 r.body 0), rd32 r.body 2⟩
    let span (x : TimeStamp) : Int := 864000000 * (x.day.toNat : Int) + (x.dayTime : Int)
    let step := max (-2147483648) (min (span new - span s.stamp) 2147483647)
    let sets (t : State) : Prop := t.clock = ⟨new, .free, none⟩ ∧
      t.pt[sysPoint 4].qual = (if s.cfg.settings.minutePulse then .abnormal else .normal) ∧
      (s.room 1 → s.records t 0 new (.clock step .set .free))
    (new.dayTime < 864000000 →
      (∃ t : State, exec (.setTime true r) s = .next t ∧ sets t ∧ t.link.receiver = .hunt) ∧
      (s.addressed = true →
        ∃ t : State, exec (.setTime false r) s = .next t ∧ sets t ∧
          t.repliesWith 0x28 r.sel .ok (leInt32 step ++ [1#8]))) ∧
    (864000000 ≤ new.dayTime →
      exec (.setTime true r) s =
        .next (s.heard.setLink { s.heard.link with receiver := .hunt }) ∧
      (s.addressed = true →
        exec (.setTime false r) s = .next (sendReply 0x28 r.sel .range [] s.heard)))

/-! ### Configuration requests -/

/-- An accepted PUT writes its candidate record, makes point 264 ABNORMAL and is answered OK; a selected
value outside its range, and an item number beyond its table, is refused RANGE, and a record at odds with
the rest of the configuration CONFLICT or FULL; a refused PUT changes nothing but the reply and the silence
timer (R159, R2, R24, R37, R63, R78, R105, R124, R163). PUT_POINT acts on the Force Table and on the
qualification of its point (R3, R7), a point whose window alone changes leaves the one window and joins the
other (R40; where point 264 stands ABNORMAL already), and PUT_SETTINGS acts on the decay timer, the silence
timer and the clock (R163; that its CLOCK record of reason DISABLE stands before the record of point 264 is
log entry 33). -/
def Obligations.PutsWriteRecords : Prop :=
  ∀ (r : Request) (s : State), s.hears → s.systemLaw → r.sel.toNat < 512 → s.store.job = none →
    let b := r.body
    let written (c : Instr) (kind : Nat) (data : List Byte) (holds : State → Prop) : Prop :=
      ∃ t : State, exec c s = .next t ∧ holds t ∧ t.store.differs = true ∧
        t.pt[sysPoint 8].qual = .abnormal ∧ t.repliesWith kind r.sel .ok data
    let refused (c : Instr) (kind : Nat) (code : ResultCode) : Prop :=
      exec c s = .next (sendReply kind r.sel code [] s.heard)
    (b.length = 14 →
      (268 ≤ rd16 b 0 → refused (.putPoint r) 0x30 .range) ∧
      ∀ p : Fin 268, rd16 b 0 = p.val →
        let old := s.cfg.points[p]
        ((∀ c : PointConfig, ¬ PointPut p old b c) → refused (.putPoint r) 0x30 .range) ∧
        ∀ c : PointConfig, PointPut p old b c →
          (pointConflict s.cfg p (rd16 b 2) c → refused (.putPoint r) 0x30 .conflict) ∧
          (¬ pointConflict s.cfg p (rd16 b 2) c → windowFull s.cfg p c →
            refused (.putPoint r) 0x30 .full) ∧
          (¬ pointConflict s.cfg p (rd16 b 2) c → ¬ windowFull s.cfg p c →
            let level : PointState := match c.sense with
              | .alarmOnClosed => if s.pt[p].raw then .abnormal else .normal
              | .alarmOnOpen => if s.pt[p].raw then .normal else .abnormal
            let unforces := c.kind = .mode ∨ c.kind = .key ∨ c.kind = .spare ∧ old.kind ≠ .spare
            written (.putPoint r) 0x30 [] fun t =>
              t.cfg.points[p] = c ∧
              (unforces → t.forces = s.forces.filter fun e => e.point ≠ p) ∧
              (¬ unforces → t.forces = s.forces) ∧
              (p.val < 256 →
                { t.pt[p] with active := s.pt[p].active } =
                  s.pt[p].afterPut old c s.operating level s.stamp s.now)) ∧
          (¬ pointConflict s.cfg p (rd16 b 2) c → ¬ windowFull s.cfg p c → rd16 b 2 = 128 →
            p.val < 256 → old.kind = .alarm → s.pt[p].active = s.isActive p →
            s.store.differs = true → old.window ≠ c.window →
            let base := s.heard.setCfg { s.cfg with points := s.cfg.points.set p.val c p.isLt }
            let left := match old.window with
              | none => base
              | some w => if s.pt[p].active then departure w base else listChange w base
            let joined := match c.window with
              | none => left
              | some w => if s.pt[p].active then arrival w c.unit left else listChange w left
            exec (.putPoint r) s = .next (sendReply 0x30 r.sel .ok [] joined))) ∧
    (b.length = 12 →
      (9 ≤ rd8 b 0 → refused (.putUnit r) 0x32 .range) ∧
      ∀ u : Fin 9, rd8 b 0 = u.val →
        ((∀ c : UnitConfig, ¬ UnitPut s.cfg.units[u] b c) → refused (.putUnit r) 0x32 .range) ∧
        ∀ c : UnitConfig, UnitPut s.cfg.units[u] b c →
          (unitAtOdds s.cfg u (rd8 b 1) c → refused (.putUnit r) 0x32 .conflict) ∧
          (¬ unitAtOdds s.cfg u (rd8 b 1) c →
            written (.putUnit r) 0x32 [] fun t => t.cfg.units[u] = c)) ∧
    (b.length = 6 →
      (192 ≤ rd8 b 0 → refused (.putWindow r) 0x34 .range) ∧
      ∀ w : Fin 192, rd8 b 0 = w.val →
        ((∀ c : WindowConfig, ¬ WindowPut s.cfg.windows[w] b c) →
          refused (.putWindow r) 0x34 .range) ∧
        ∀ c : WindowConfig, WindowPut s.cfg.windows[w] b c →
          written (.putWindow r) 0x34 [] fun t => t.cfg.windows[w] = c) ∧
    (4 ≤ b.length → b.length ≤ 68 →
      (rd8 b 0 = 0 ∨ 5 ≤ rd8 b 0 → refused (.putPanel r) 0x36 .range) ∧
      ∀ p : Fin 4, rd8 b 0 = p.val + 1 →
        ((∀ c : PanelConfig, ¬ PanelPut b c) → refused (.putPanel r) 0x36 .range) ∧
        ∀ c : PanelConfig, PanelPut b c →
          (¬ c.positions.Nodup → refused (.putPanel r) 0x36 .conflict) ∧
          (c.positions.Nodup →
            written (.putPanel r) 0x36 [byteOf c.brightness] fun t => t.cfg.panels[p] = c)) ∧
    (b.length = 4 →
      (16 ≤ rd8 b 0 → refused (.putGroup r) 0x38 .range) ∧
      ∀ g : Fin 16, rd8 b 0 = g.val →
        ((∀ c : GroupConfig, ¬ GroupPut s.cfg.groups[g] b c) → refused (.putGroup r) 0x38 .range) ∧
        ∀ c : GroupConfig, GroupPut s.cfg.groups[g] b c →
          written (.putGroup r) 0x38 [] fun t => t.cfg.groups[g] = c) ∧
    (b.length = 18 →
      (32 ≤ rd8 b 0 → refused (.putEquation r) 0x3A .range) ∧
      ((∀ c : EquationRecord, ¬ EquationPut b c) → refused (.putEquation r) 0x3A .range) ∧
      ∀ c : EquationRecord, EquationPut b c → equationRecord b = some c) ∧
    (b.length = 8 →
      (16 ≤ rd8 b 0 → refused (.putOutput r) 0x3C .range) ∧
      ∀ o : Fin 16, rd8 b 0 = o.val →
        ((∀ c : OutputConfig, ¬ OutputPut s.cfg.outputs[o] b c) →
          refused (.putOutput r) 0x3C .range) ∧
        ∀ c : OutputConfig, OutputPut s.cfg.outputs[o] b c →
          written (.putOutput r) 0x3C [] fun t => t.cfg.outputs[o] = c) ∧
    (b.length = 10 →
      let old := s.cfg.settings
      ((∀ c : Settings, ¬ SettingsPut old b c) → refused (.putSettings r) 0x3E .range) ∧
      ∀ c : Settings, SettingsPut old b c →
        let frees := c.minutePulse = false ∧ old.minutePulse = true ∧ s.clock.state = .locked
        written (.putSettings r) 0x3E [] fun t =>
          t.cfg.settings = c ∧
          t.decay = (if c.decay = old.decay then s.decay else s.decay.map fun _ => s.now) ∧
          t.link.silence = (if c.silence = 0 then none else some s.now) ∧
          t.link.speed = s.link.speed ∧
          t.clock = (if frees then ⟨s.clock.stamp, .free, none⟩ else s.clock) ∧
          (s.clock.state ≠ .locked ∨ frees → t.pt[sysPoint 4].qual =
            if s.clock.state = .unset ∨ c.minutePulse = true then .abnormal else .normal) ∧
          (frees → s.room 1 → s.records t 0 s.stamp (.clock 0 .disable .free)))

/-- PUT_EQUATION stages its record in TIMING and TRIPPED, setting the overwrite flag where one was
pending, and installs it at once in the other states: the terms and the condition formed, the cause
absent, the state set from the record; a record that breaks the ordering is refused ORDER (R104 to R107).
(Where point 264 stands ABNORMAL already, no other change is handed on.) A term has the value that the table of
R102 gives and reads the point, the equation or the unit that it names; it keeps the ordering of equation k
exactly where it names no equation of number k or higher (R104). -/
def Obligations.PutEquationStagesOrInstalls : Prop :=
  (∀ (x : Term) (s : State), s.term x = match x with
    | .const v => v
    | .point p => decide (s.effective p = .abnormal)
    | .equation k => decide (s.eqn[k].state = .tripped)
    | .mode u m => decide (s.un[u].current = m)) ∧
  (∀ (x : Term) (src : TermSource), x.names src = true ↔ match src with
    | .point p => x = .point p
    | .equation k => x = .equation k
    | .mode u => ∃ m : Mode, x = .mode u m) ∧
  (∀ (x : Term) (k : Fin 32), x.below k = true ↔ ∀ j : Fin 32, x = .equation j → j < k) ∧
  ∀ (r : Request) (s : State) (k : Fin 32) (c : EquationRecord), s.hears → s.systemLaw →
    r.sel.toNat < 512 → s.store.job = none → r.body.length = 18 → rd8 r.body 0 = k.val →
    equationRecord r.body = some c →
    let q := s.eqn[k]
    ((c.a.below k && c.b.below k) = false →
      exec (.putEquation r) s = .next (sendReply 0x3A r.sel .order [] s.heard)) ∧
    ((c.a.below k && c.b.below k) = true →
      ∃ t : State, exec (.putEquation r) s = .next t ∧ t.store.differs = true ∧
        t.pt[sysPoint 8].qual = .abnormal ∧
        t.repliesWith 0x3A r.sel .ok
          [byteOf t.eqn[k].state.code, byteOf t.eqn[k].staged.isSome.toNat] ∧
        (s.store.differs = true →
          (∀ j : Fin 32, j ≠ k → t.eqn[j] = s.eqn[j] ∧ t.cfg.equations[j] = s.cfg.equations[j]) ∧
          (q.state = .timing ∨ q.state = .tripped →
            t.cfg = s.cfg ∧
            t.eqn[k] = { q with staged := some c, overwrite := q.overwrite || q.staged.isSome }) ∧
          (q.state ≠ .timing → q.state ≠ .tripped →
            t.cfg.equations[k] = c ∧
            let a := s.term c.a
            let b := s.term c.b
            let cond := condOf c.func a b
            t.eqn[k] =
              { state :=
                  if s.operating = false ∨ c.inUse = false then .unused
                  else if cond then .disarmed
                  else if s.un[c.unit].blocked then .blocked else .idle
                a := a, b := b, cond := cond, timing := none, cause := none
                staged := none, overwrite := false })))

/-! ### The store, the service states and the starts -/

/-- SAVE takes a copy of the configuration and the service state and is answered SAVING. A success within
2 s stores the copy and makes the store agree but for pending equation records; a failure leaves point
264 and makes point 267 ABNORMAL (R169). What the store then holds is a free value (log entry 9);
that a success at exactly 2 s succeeds, and a later one does nothing, is log entry 26. -/
def Obligations.SaveRuns : Prop :=
  ∀ (r : Request) (s : State), s.systemLaw →
    (s.hears → r.sel.toNat < 512 → r.body = [] → s.settle = none → s.store.job = none →
      exec (.save r) s = .next (sendReply 0x40 r.sel .ok [1#8]
        (s.heard.setStore { s.store with
          job := some (SaveJob.mk s.cfg s.service
            ((List.finRange 32).any fun k => s.eqn[k].staged.isSome) s.now) }))) ∧
    (s.store.job = none →
      exec .saveSuccess s = .next s ∧ exec .saveFailure s = .next s) ∧
    ∀ j : SaveJob, s.store.job = some j →
      (j.start + 20000 < s.now → exec .saveSuccess s = .next s) ∧
      (s.now ≤ j.start + 20000 →
        ∃ t : State, exec .saveSuccess s = .next t ∧
          t.store = { image := ⟨j.tables, j.service, true⟩, job := none, lastFailed := false,
                      differs := s.store.differs && j.stagedHeld } ∧
          t.pt[sysPoint 8].qual = (if t.store.differs then .abnormal else .normal) ∧
          t.pt[sysPoint 11].qual = .normal) ∧
      ∃ (t : State) (image : StoredImage), exec .saveFailure s = .next t ∧
        t.store = { s.store with image := image, job := none, lastFailed := true } ∧
        (image = s.store.image ∨ image = ⟨j.tables, j.service, true⟩ ∨
          image = { s.store.image with check := false }) ∧
        t.pt[sysPoint 8].qual = s.pt[sysPoint 8].qual ∧ t.pt[sysPoint 11].qual = .abnormal

/-- SET_SERVICE takes the changes of the table of R167 with a SERVICE record of cause REQUEST, begins a
settle from UNCONFIGURED to COMMISSIONING, and at the return to UNCONFIGURED clears the dynamic state: the
forces, the field points, the units (R36; their modes where the roles are lawful, R24), the windows that no
system point feeds, the groups but for that of point 261 where the log is full, the equations and the
outputs; CLEAR_ALL, in COMMISSIONING with no settle, keeps the configuration with its pending records
installed, the clock and the store, empties the log and sets every block to its start values, with a settle
(R167, R172, and R19, R34, R60, R77, R100, R122, R135, R165 for the blocks; that the start ends a running KEY
wait is log entry 31, and that the frame clock has not begun is log entry 7). -/
def Obligations.ServiceRequestsAct : Prop :=
  ∀ (r : Request) (s : State), s.hears → s.systemLaw → r.sel.toNat < 512 → s.settle = none →
    let sent (code : ResultCode) (data : List Byte) : Host.Outcome State Fault Refusal :=
      .next (sendReply 0x41 r.sel code data s.heard)
    let x := rd8 r.body 0
    (r.body.length = 1 →
      (3 ≤ x → exec (.setService r) s = sent .range []) ∧
      (x = s.service.code → exec (.setService r) s = sent .ok [byteOf x, 0#8]) ∧
      (s.service = .unconfigured ∧ x = 2 ∨ s.service = .inService ∧ x = 0 →
        exec (.setService r) s = sent .state []) ∧
      ∀ target : Service, x = target.code → s.service ≠ target →
        ¬ (s.service = .unconfigured ∧ target = .inService) →
        ¬ (s.service = .inService ∧ target = .unconfigured) →
        ∃ t : State, exec (.setService r) s = .next t ∧ t.service = target ∧
          t.settle = (if s.service = .unconfigured then some s.now else none) ∧
          t.repliesWith 0x41 r.sel .ok [byteOf x, byteOf t.settle.isSome.toNat] ∧
          (s.room 1 → s.records t 0 s.stamp (.service target .request)) ∧
          (target = .inService → ∀ o : Fin 16, t.out[o].manual = false) ∧
          (target = .unconfigured →
            t.forces = [] ∧ t.decay = none ∧
            (∀ p : Fin 256, t.pt[fieldPoint p].qual = .normal ∧ t.pt[fieldPoint p].active = false ∧
              t.pt[fieldPoint p].chattering = false ∧ t.pt[fieldPoint p].score = 0 ∧
              t.pt[fieldPoint p].debounce = none) ∧
            (∀ u : Fin 9,
              t.un[u].target = none ∧ t.un[u].settle = none ∧ t.un[u].blocked = false ∧
              (s.roleLaw →
                let m : Mode :=
                  if u = 0 then .common else if s.cfg.units[u].run = none then .generate else .stopped
                t.un[u].decoded = m ∧ t.un[u].current = m)) ∧
            (∀ w : Fin 192, (∀ k : Fin 12, s.cfg.points[sysPoint k].window ≠ some w) →
              t.win[w] = .quiet) ∧
            (∀ g : Fin 16, t.log.full = false ∨ s.cfg.points[sysPoint 5].group ≠ some g →
              t.grp[g] = s.grp[g].rearmed) ∧
            (∀ k : Fin 32, t.eqn[k].state = .unused) ∧
            ∀ o : Fin 16, t.out[o].manual = false ∧ t.out[o].commanded = false ∧
              t.out[o].pulse = none ∧ t.out[o].fault = false)) ∧
    (r.body = [] → s.service = .commissioning →
      ∃ t : State, exec (.clearAll r) s = .next t ∧ t.service = .commissioning ∧
        t.settle = some s.now ∧ t.repliesWith 0x42 r.sel .ok [1#8, 1#8] ∧
        { t.cfg with equations := s.cfg.equations } = s.cfg ∧
        (∀ k : Fin 32, t.cfg.equations[k] = s.eqn[k].staged.getD s.cfg.equations[k]) ∧
        t.clock = s.clock ∧ t.store = s.store ∧ s.started t ∧
        t.log.recs[0]? = some ⟨0, s.stamp, .service .commissioning .clearAll⟩)

/-- Power-on and the reset line load the image where it is good and the defaults otherwise, empty the log
and store the SERVICE record of the start as number 0, set every block to its start values, and begin a
settle unless UNCONFIGURED; power-on also sets the clock UNSET at day 0 (R168, R171, and R19, R34, R60, R77,
R100, R122, R135, R165 for the blocks). Whether an image whose SAVE a start ended had been written is a free
value (log entry 10). That a start ends a running KEY wait is log entry 31, that the frame clock has not
begun log entry 7, and that a clock kept LOCKED leaves point 260 NORMAL where the image disables the pulse
log entry 32. An image is good exactly where its check word verifies, every field lies in its range, and it keeps
the laws of the configured tables: the ordering of equations, at most eight contributors of a window, no window
twice on a panel, every mode point and block key of its kind (R168; that the fixed fields of the system points
and of unit 0 have no other range is log entry 28). -/
def Obligations.StartsLoadTheImage : Prop :=
  (∀ i : StoredImage, i.good = true ↔ i.check = true ∧ i.tables.inRanges ∧ i.tables.keepsLaws) ∧
  Tables.default.atDefaults ∧
  ∀ (s : State) (power : Bool),
    let c : Instr := if power then .powerOn else .resetLine
    let clock : HallClock := if power then ⟨⟨0, 0⟩, .unset, none⟩ else s.clock
    ∃ (t : State) (image : StoredImage), exec c s = .next t ∧
      (s.store.job = none → image = s.store.image) ∧
      (∀ j : SaveJob, s.store.job = some j →
        image = ⟨j.tables, j.service, true⟩ ∨ image = { s.store.image with check := false }) ∧
      t.cfg = (if image.good then image.tables else Tables.default) ∧
      t.service = (if image.good then image.service else .unconfigured) ∧
      t.store = ⟨image, none, false, !image.good⟩ ∧
      t.settle = (if t.service = .unconfigured then none else some s.now) ∧
      t.clock = clock ∧
      t.log.recs[0]? = some ⟨0, clock.stamp, .service t.service
        (match power, image.good with
          | true, true => .powerOn
          | true, false => .powerOnDefaults
          | false, true => .resetLine
          | false, false => .resetLineDefaults)⟩ ∧
      t.link.receiver = .hunt ∧ t.link.station = s.link.straps ∧
      t.link.speed = t.cfg.settings.speed ∧
      s.started t

/-- At the settle end every qualified field point is seeded from its mapped level, in ascending number, with a
STARTUP POINT record where it is ABNORMAL and logged (R20); every unit takes the mode that its seeded mode
points give, out of changeover, with its MODE record and MODE news where its mode changes, and is blocked while
its seeded block key is ABNORMAL, and point 266 follows (R35); every active flag stands as R12 gives it, and a
window with an arrival is in ALERT with its call and the ALERT news of the point's unit, a SEQ-S window HELD,
while the others stand (R60); every equation has its terms and its condition formed from its record, and its
state from them (R122, R102, R103); no output and no group changes, the decay timer starts, and no settle runs
(R170). (That the records of the points come before those of the units, and that of point 266 after them, is
log entry 20.) -/
def Obligations.SettleEndSeedsBlocks : Prop :=
  ∀ s : State,
    (s.settleOver = true ↔ ranOut s.now s.settle 2500) ∧
    (s.settleOver = false → exec .settleEnd s = .next s) ∧
    (s.settleOver = true →
      let level := fun p : Fin 268 => match s.cfg.points[p].sense with
        | .alarmOnClosed => PointState.ofBit s.pt[p].raw
        | .alarmOnOpen => PointState.ofBit !s.pt[p].raw
      let seeded := fun p : Fin 268 =>
        if s.cfg.points[p].kind.qualified then level p else s.pt[p].qual
      let abnormal (none_ : Bool) (role : Option (Fin 268)) : Bool := match role with
        | none => none_
        | some p => (s.forcedValue p).getD (seeded p) == .abnormal
      let mode := fun u : Fin 9 =>
        let c := s.cfg.units[u]
        if u = 0 then Mode.common
        else decodedMode (abnormal true c.run) (abnormal false c.pump) (abnormal false c.cond)
      let blocked := fun u : Fin 9 => abnormal false s.cfg.units[u].key
      let logs := (List.finRange 256).filter fun p =>
        let c := s.cfg.points[fieldPoint p]
        c.kind.qualified && level (fieldPoint p) == .abnormal && c.logging
      let moves := (List.finRange 9).filter fun u => s.un[u].current != mode u
      ∃ t : State, exec .settleEnd s = .next t ∧ t.settle = none ∧ t.decay = some s.now ∧
        (∀ p : Fin 256,
          let r := s.pt[fieldPoint p]
          let r' := t.pt[fieldPoint p]
          if s.cfg.points[fieldPoint p].kind.qualified then
            r'.raw = r.raw ∧ r'.qual = level (fieldPoint p) ∧ r'.lastEdge = s.stamp ∧
            r'.debounce = none ∧ r'.score = r.score
          else { r' with active := r.active } = r) ∧
        t.activeLaw ∧
        (∀ u : Fin 9, t.un[u].current = t.un[u].decoded ∧ t.un[u].target = none ∧
          t.un[u].settle = none) ∧
        t.pt[sysPoint 10].qual =
          (if (List.finRange 9).any fun u => t.un[u].blocked then .abnormal else .normal) ∧
        (s.roleLaw →
          (∀ u : Fin 9, t.un[u] =
            { decoded := mode u, current := mode u, target := none, settle := none, blocked := blocked u }) ∧
          (∀ u ∈ moves, t.news[u].mode = true) ∧
          (s.room (logs.length + moves.length) → ∀ (i : Nat) (u : Fin 9), moves[i]? = some u →
            s.records t (logs.length + i) s.stamp (.mode u s.un[u].current (mode u))) ∧
          (s.room (logs.length + moves.length + 1) → s.pt[sysPoint 10].qual = .normal →
            (∃ u : Fin 9, blocked u = true) →
            s.records t (logs.length + moves.length) s.stamp
              (.point (sysPoint 10) .abnormal { system := true, startup := true } s.stamp))) ∧
        (s.room logs.length → ∀ (i : Nat) (p : Fin 256), logs[i]? = some p →
          s.records t i s.stamp (.point (fieldPoint p) .abnormal { startup := true } s.stamp)) ∧
        (∀ (w : Fin 192) (p : Fin 268), s.cfg.points[p].feeds w → s.pt[p].active = false →
          t.pt[p].active = true →
          let c := s.cfg.windows[w]
          let u : Fin 9 := if p.val < 256 then s.cfg.points[p].unit else 0
          t.win[w] = (if c.seq = .seqS then .held else .alert) ∧
          (c.seq ≠ .seqS → t.news[u].alert = true ∧
            ∀ q : Fin 4, w ∈ s.cfg.panels[q].positions → t.pan[q].calls.has c.cls = true)) ∧
        (s.activeLaw → s.systemLaw → ∀ w : Fin 192,
          (∀ p : Fin 268, s.cfg.points[p].feeds w → t.pt[p].active = s.pt[p].active) →
          t.win[w] = s.win[w]) ∧
        (∀ k : Fin 32,
          t.eqn[k].state =
            (if s.service = .unconfigured ∨ t.cfg.equations[k].inUse = false then .unused
             else if t.eqn[k].cond then .disarmed
             else if t.un[t.cfg.equations[k].unit].blocked then .blocked else .idle) ∧
          t.eqn[k].cond = condOf t.cfg.equations[k].func t.eqn[k].a t.eqn[k].b ∧
          t.eqn[k].timing = none ∧ t.eqn[k].cause = none) ∧
        (s.orderLaw → ∀ k : Fin 32,
          t.eqn[k].a = t.term t.cfg.equations[k].a ∧ t.eqn[k].b = t.term t.cfg.equations[k].b) ∧
        (s.timingLaw → t.cfg = s.cfg ∧ t.out = s.out ∧ t.grp = s.grp))

/-! ### Tables of the manual -/

/-- The condition of an equation is true exactly when bit 2A + B of its function code is 1: the sixteen
functions of R103. -/
def Obligations.ConditionFollowsFunctionCode : Prop :=
  ∀ (f : Fin 16) (a b : Bool),
    condOf f a b = (f.val / 2 ^ (2 * (if a then 1 else 0) + (if b then 1 else 0)) % 2 == 1) ∧
    condOf 0 a b = false ∧ condOf 1 a b = !(a || b) ∧ condOf 2 a b = (!a && b) ∧
    condOf 3 a b = !a ∧ condOf 4 a b = (a && !b) ∧ condOf 5 a b = !b ∧ condOf 6 a b = (a != b) ∧
    condOf 7 a b = !(a && b) ∧ condOf 8 a b = (a && b) ∧ condOf 9 a b = (a == b) ∧
    condOf 10 a b = b ∧ condOf 11 a b = (!a || b) ∧ condOf 12 a b = a ∧
    condOf 13 a b = (a || !b) ∧ condOf 14 a b = (a || b) ∧ condOf 15 a b = true

/-- One time stamp is earlier than another when its day is reached by adding 1 to 32767 days to it, day
65535 being followed by day 0, or on one day when its day-time is smaller; where the days differ by
exactly 32768 the first is read as later (R66). -/
def Obligations.EarlierTimeStamp : Prop :=
  ∀ e t : TimeStamp,
    (e.day = t.day → (e.earlier t = true ↔ e.dayTime < t.dayTime)) ∧
    (e.day ≠ t.day →
      (e.earlier t = true ↔ ∃ n : Nat, 1 ≤ n ∧ n ≤ 32767 ∧ e.day + BitVec.ofNat 16 n = t.day)) ∧
    (t.day = e.day + 32768#16 → e.earlier t = false) ∧
    e.earlier e = false

/-- The decoded mode of a unit by the table of R27, a point of NONE counting as ABNORMAL for RUN and as NORMAL
for PUMP and COND; the condition, marker, chatter indication and lamp code of a window (R57 to R59); the
codes, brightness and phase of a LAMP frame, with a lamp test's STEADY and brightness 8 (R82); what a fascia
lights by the table of R83 (R176 for a code with no pattern or colour); when a horn sounds (R98, R99); when
the attention line is asserted (R161); the kinds of points that are qualified and that can be active (R1), and
the level of a contact (R5); and the conditions of the twelve system points (R13). The operations on one item
of a table, in which the statements are written, change that item alone. -/
def Obligations.ModeAndLampTables : Prop :=
  (∀ run pump cond : Bool, decodedMode run pump cond =
    match run, pump, cond with
    | false, _, _ => .stopped
    | true, false, false => .generate
    | true, true, false => .pump
    | true, _, true => .condense) ∧
  (∀ (s : State) (u : Fin 9),
    let abnormal (p : Option (Fin 268)) (none_ : Bool) : Bool := match p with
      | none => none_
      | some p => s.effective p == .abnormal
    let c := s.cfg.units[u]
    s.decode u =
      if u = 0 then .common
      else decodedMode (abnormal c.run true) (abnormal c.pump false) (abnormal c.cond false)) ∧
  (∀ (x : WindowState) (marker chatter : Bool),
    lampPattern .seqS x marker chatter = (if x = .held then .steady else .off) ∧
    ∀ seq : SeqType, seq ≠ .seqS → lampPattern seq x marker chatter =
      match x with
      | .quiet => .off
      | .alert => if marker then .first else .fast
      | .held => if marker then .first else if chatter then .wink else .steady
      | .returned => .slow) ∧
  (∀ (s : State) (w : Fin 192),
    let c := s.cfg.windows[w]
    let fedBy (f : Fin 268 → Bool) : Prop := ∃ p : Fin 268, s.cfg.points[p].feeds w ∧ f p = true
    (s.condition w = true ↔ fedBy fun p => s.pt[p].active) ∧
    (s.marker w = true ↔ fedBy fun p =>
      (List.finRange 16).any fun g => s.grp[g].firstOut.contains p) ∧
    (s.chatterIndication w = true ↔ fedBy fun p =>
      s.pt[p].chattering && s.forces.all fun e => e.point != p) ∧
    s.lampCode w = byteOf
      ((lampPattern c.seq s.win[w] (s.marker w) (s.chatterIndication w)).code + 8 * c.colour.code)) ∧
  (∀ (s : State) (p : Fin 4),
    let r := s.pan[p]
    let f := s.lampFrame p
    f.length = 69 ∧ f[0]? = some 0xA5#8 ∧ f[1]? = some s.frameClock.phase ∧
    f[2]? = some (byteOf (if r.keyTest ∨ r.test ≠ none then 8 else r.brightness)) ∧
    f.drop 67 = le16 (crc16 (f.take 67)).toNat ∧
    ∀ k : Fin 64,
      let tested := r.keyTest || r.test.any fun x => x.first ≤ k.val && k.val ≤ x.last
      f[3 + k.val]? = some (match s.cfg.panels[p].positions[k.val]? with
        | some w => if tested then byteOf (1 + 8 * s.cfg.windows[w].colour.code) else s.lampCode w
        | none => if tested then 1#8 else 0#8)) ∧
  (∀ ms : Nat,
    litAt Pattern.off.code ms = false ∧ litAt Pattern.steady.code ms = true ∧
    (litAt Pattern.fast.code ms = true ↔ ms % 400 < 200) ∧
    (litAt Pattern.slow.code ms = true ↔ ms % 1600 < 800) ∧
    (litAt Pattern.first.code ms = true ↔ ms % 800 < 100 ∨ 200 ≤ ms % 800 ∧ ms % 800 < 300) ∧
    (litAt Pattern.wink.code ms = true ↔ ms % 2000 < 1800)) ∧
  (∀ (s : State) (p : Fin 4),
    (s.hornOn p = match s.pan[p].horn with
      | .silent => false
      | .chime _ => true
      | .cadence .c1 _ => true
      | .cadence .c2 b => decide ((s.now - b) % 10000 < 6000)
      | .cadence .c3 b => decide ((s.now - b) % 10000 < 3000)
      | .cadence .c4 b => decide ((s.now - b) % 20000 < 2000)) ∧
    ∀ c : WindowClass, s.pan[p].calls.highest = some c ↔
      s.pan[p].calls.has c = true ∧
        ∀ d : WindowClass, d.code < c.code → s.pan[p].calls.has d = false) ∧
  (∀ (f : Fascia) (k now : Nat), f.lit k now = true ↔
    rd8 f.codes k / 8 % 4 ≤ 2 ∧
      litAt (rd8 f.codes k % 8) (40 * f.phase.toNat + (now - f.since) / 10) = true) ∧
  (∀ c : ClassSet, c.has .c1 = c.c1 ∧ c.has .c2 = c.c2 ∧ c.has .c3 = c.c3 ∧ c.has .c4 = c.c4) ∧
  (∀ d : WindowClass, ClassSet.empty.has d = false) ∧
  (∀ k : PointKind,
    (k.qualified = true ↔ k ≠ .spare ∧ k ≠ .system) ∧
    (k.annunciates = true ↔ k = .alarm ∨ k = .system)) ∧
  (∀ (s : State) (p : Fin 268), s.level p = match s.cfg.points[p].sense with
    | .alarmOnClosed => if s.pt[p].raw then .abnormal else .normal
    | .alarmOnOpen => if s.pt[p].raw then .normal else .abnormal) ∧
  (∀ b : Bool, PointState.ofBit b = (if b then .abnormal else .normal) ∧ (PointState.ofBit b).bit = b) ∧
  (∀ p : Fin 256, (fieldPoint p).val = p.val) ∧ (∀ k : Fin 12, (sysPoint k).val = 256 + k.val) ∧
  (∀ (s : State) (p : Fin 4) (c : WindowClass), s.alertOn p c = true ↔
    ∃ w ∈ s.cfg.panels[p].positions, s.win[w] = .alert ∧ s.cfg.windows[w].cls = c) ∧
  (∀ s : State,
    (∀ p : Fin 4, s.sysCond (panelPoint p) = true ↔ s.pan[p].link = .lost) ∧
    (s.sysCond 4 = true ↔ s.clock.state = .unset ∨
      s.clock.state = .free ∧ s.cfg.settings.minutePulse = true) ∧
    (s.sysCond 5 = s.log.full) ∧
    (s.sysCond 6 = true ↔ ∃ o : Fin 16, s.out[o].fault = true) ∧
    (s.sysCond 7 = true ↔ s.forces ≠ []) ∧ s.sysCond 8 = s.store.differs ∧
    s.sysCond 9 = s.link.silent ∧
    (s.sysCond 10 = true ↔ ∃ u : Fin 9, s.un[u].blocked = true) ∧
    s.sysCond 11 = s.store.lastFailed) ∧
  (∀ s : State,
    (∀ p f, s.modPt p f = { s with pt := s.pt.set p.val (f s.pt[p]) p.isLt }) ∧
    (∀ u f, s.modUn u f = { s with un := s.un.set u.val (f s.un[u]) u.isLt }) ∧
    (∀ w x, s.setWin w x = { s with win := s.win.set w.val x w.isLt }) ∧
    (∀ g f, s.modGrp g f = { s with grp := s.grp.set g.val (f s.grp[g]) g.isLt }) ∧
    (∀ p f, s.modPan p f = { s with pan := s.pan.set p.val (f s.pan[p]) p.isLt }) ∧
    (∀ k f, s.modEqn k f = { s with eqn := s.eqn.set k.val (f s.eqn[k]) k.isLt }) ∧
    (∀ o f, s.modOut o f = { s with out := s.out.set o.val (f s.out[o]) o.isLt }) ∧
    (∀ u, s.setNews u .trip =
      { s with news := s.news.set u.val { s.news[u] with trip := true } u.isLt }) ∧
    (∀ u, s.setNews u .mode =
      { s with news := s.news.set u.val { s.news[u] with mode := true } u.isLt }) ∧
    (∀ x, s.setLink x = { s with link := x }) ∧ (∀ x, s.setStore x = { s with store := x }) ∧
    (∀ x, s.setCfg x = { s with cfg := x }) ∧
    ∀ (n : Nat) (f : Fin n → State → State),
      each n f s = (List.finRange n).foldl (fun a i => f i a) s) ∧
  ∀ s : State,
    let e := s.cfg.settings.enables
    s.attention = true ↔
      (∃ u : Fin 9, s.news[u].alert = true ∧ e.alert = true ∨ s.news[u].trip = true ∧ e.trip = true ∨
        s.news[u].mode = true ∧ e.mode = true ∨ s.news[u].fault = true ∧ e.fault = true) ∨
      s.log.recs ≠ [] ∧ e.log = true
end

