-- ==== Sys2Proof/Laws/State.lean ====
section
/-! SUPPORT. What each field update leaves and what it sets: one lemma for each field of each update. -/
namespace Sys2Proof.Machine

/-- An item of a table after one item is set. -/
theorem Vector_getElem_set_fin {α : Type} {n : Nat} (v : Vector α n) (i : Fin n) (x : α) (j : Nat) (h : j < n) :
    (v.set i.val x i.isLt)[j] = if i.val = j then x else v[j] := Vector.getElem_set ..

/-- An item of the table of a function. -/
@[simp] theorem tab_getElem {α : Type} {n : Nat} (f : Fin n → α) (j : Nat) (h : j < n) : (tab f)[j] = f ⟨j, h⟩ := by
  simp [tab]

/-! ### modPt -/

@[simp] theorem modPt_now (s : State) (p : Fin 268) (f : PointRun → PointRun) : (s.modPt p f).now = s.now := rfl
@[simp] theorem modPt_draws (s : State) (p : Fin 268) (f : PointRun → PointRun) : (s.modPt p f).draws = s.draws := rfl
@[simp] theorem modPt_service (s : State) (p : Fin 268) (f : PointRun → PointRun) : (s.modPt p f).service = s.service := rfl
@[simp] theorem modPt_settle (s : State) (p : Fin 268) (f : PointRun → PointRun) : (s.modPt p f).settle = s.settle := rfl
@[simp] theorem modPt_cfg (s : State) (p : Fin 268) (f : PointRun → PointRun) : (s.modPt p f).cfg = s.cfg := rfl
@[simp] theorem modPt_forces (s : State) (p : Fin 268) (f : PointRun → PointRun) : (s.modPt p f).forces = s.forces := rfl
@[simp] theorem modPt_decay (s : State) (p : Fin 268) (f : PointRun → PointRun) : (s.modPt p f).decay = s.decay := rfl
@[simp] theorem modPt_un (s : State) (p : Fin 268) (f : PointRun → PointRun) : (s.modPt p f).un = s.un := rfl
@[simp] theorem modPt_win (s : State) (p : Fin 268) (f : PointRun → PointRun) : (s.modPt p f).win = s.win := rfl
@[simp] theorem modPt_grp (s : State) (p : Fin 268) (f : PointRun → PointRun) : (s.modPt p f).grp = s.grp := rfl
@[simp] theorem modPt_frameClock (s : State) (p : Fin 268) (f : PointRun → PointRun) : (s.modPt p f).frameClock = s.frameClock := rfl
@[simp] theorem modPt_pan (s : State) (p : Fin 268) (f : PointRun → PointRun) : (s.modPt p f).pan = s.pan := rfl
@[simp] theorem modPt_eqn (s : State) (p : Fin 268) (f : PointRun → PointRun) : (s.modPt p f).eqn = s.eqn := rfl
@[simp] theorem modPt_out (s : State) (p : Fin 268) (f : PointRun → PointRun) : (s.modPt p f).out = s.out := rfl
@[simp] theorem modPt_clock (s : State) (p : Fin 268) (f : PointRun → PointRun) : (s.modPt p f).clock = s.clock := rfl
@[simp] theorem modPt_log (s : State) (p : Fin 268) (f : PointRun → PointRun) : (s.modPt p f).log = s.log := rfl
@[simp] theorem modPt_link (s : State) (p : Fin 268) (f : PointRun → PointRun) : (s.modPt p f).link = s.link := rfl
@[simp] theorem modPt_news (s : State) (p : Fin 268) (f : PointRun → PointRun) : (s.modPt p f).news = s.news := rfl
@[simp] theorem modPt_store (s : State) (p : Fin 268) (f : PointRun → PointRun) : (s.modPt p f).store = s.store := rfl
@[simp] theorem modPt_pending (s : State) (p : Fin 268) (f : PointRun → PointRun) : (s.modPt p f).pending = s.pending := rfl
@[simp] theorem modPt_stamp (s : State) (p : Fin 268) (f : PointRun → PointRun) : (s.modPt p f).stamp = s.stamp := rfl
@[simp] theorem modPt_operating (s : State) (p : Fin 268) (f : PointRun → PointRun) : (s.modPt p f).operating = s.operating := rfl

/-! ### modUn -/

@[simp] theorem modUn_now (s : State) (u : Fin 9) (f : UnitRun → UnitRun) : (s.modUn u f).now = s.now := rfl
@[simp] theorem modUn_draws (s : State) (u : Fin 9) (f : UnitRun → UnitRun) : (s.modUn u f).draws = s.draws := rfl
@[simp] theorem modUn_service (s : State) (u : Fin 9) (f : UnitRun → UnitRun) : (s.modUn u f).service = s.service := rfl
@[simp] theorem modUn_settle (s : State) (u : Fin 9) (f : UnitRun → UnitRun) : (s.modUn u f).settle = s.settle := rfl
@[simp] theorem modUn_cfg (s : State) (u : Fin 9) (f : UnitRun → UnitRun) : (s.modUn u f).cfg = s.cfg := rfl
@[simp] theorem modUn_pt (s : State) (u : Fin 9) (f : UnitRun → UnitRun) : (s.modUn u f).pt = s.pt := rfl
@[simp] theorem modUn_forces (s : State) (u : Fin 9) (f : UnitRun → UnitRun) : (s.modUn u f).forces = s.forces := rfl
@[simp] theorem modUn_decay (s : State) (u : Fin 9) (f : UnitRun → UnitRun) : (s.modUn u f).decay = s.decay := rfl
@[simp] theorem modUn_win (s : State) (u : Fin 9) (f : UnitRun → UnitRun) : (s.modUn u f).win = s.win := rfl
@[simp] theorem modUn_grp (s : State) (u : Fin 9) (f : UnitRun → UnitRun) : (s.modUn u f).grp = s.grp := rfl
@[simp] theorem modUn_frameClock (s : State) (u : Fin 9) (f : UnitRun → UnitRun) : (s.modUn u f).frameClock = s.frameClock := rfl
@[simp] theorem modUn_pan (s : State) (u : Fin 9) (f : UnitRun → UnitRun) : (s.modUn u f).pan = s.pan := rfl
@[simp] theorem modUn_eqn (s : State) (u : Fin 9) (f : UnitRun → UnitRun) : (s.modUn u f).eqn = s.eqn := rfl
@[simp] theorem modUn_out (s : State) (u : Fin 9) (f : UnitRun → UnitRun) : (s.modUn u f).out = s.out := rfl
@[simp] theorem modUn_clock (s : State) (u : Fin 9) (f : UnitRun → UnitRun) : (s.modUn u f).clock = s.clock := rfl
@[simp] theorem modUn_log (s : State) (u : Fin 9) (f : UnitRun → UnitRun) : (s.modUn u f).log = s.log := rfl
@[simp] theorem modUn_link (s : State) (u : Fin 9) (f : UnitRun → UnitRun) : (s.modUn u f).link = s.link := rfl
@[simp] theorem modUn_news (s : State) (u : Fin 9) (f : UnitRun → UnitRun) : (s.modUn u f).news = s.news := rfl
@[simp] theorem modUn_store (s : State) (u : Fin 9) (f : UnitRun → UnitRun) : (s.modUn u f).store = s.store := rfl
@[simp] theorem modUn_pending (s : State) (u : Fin 9) (f : UnitRun → UnitRun) : (s.modUn u f).pending = s.pending := rfl
@[simp] theorem modUn_stamp (s : State) (u : Fin 9) (f : UnitRun → UnitRun) : (s.modUn u f).stamp = s.stamp := rfl
@[simp] theorem modUn_operating (s : State) (u : Fin 9) (f : UnitRun → UnitRun) : (s.modUn u f).operating = s.operating := rfl

/-! ### setWin -/

@[simp] theorem setWin_now (s : State) (w : Fin 192) (x : WindowState) : (s.setWin w x).now = s.now := rfl
@[simp] theorem setWin_draws (s : State) (w : Fin 192) (x : WindowState) : (s.setWin w x).draws = s.draws := rfl
@[simp] theorem setWin_service (s : State) (w : Fin 192) (x : WindowState) : (s.setWin w x).service = s.service := rfl
@[simp] theorem setWin_settle (s : State) (w : Fin 192) (x : WindowState) : (s.setWin w x).settle = s.settle := rfl
@[simp] theorem setWin_cfg (s : State) (w : Fin 192) (x : WindowState) : (s.setWin w x).cfg = s.cfg := rfl
@[simp] theorem setWin_pt (s : State) (w : Fin 192) (x : WindowState) : (s.setWin w x).pt = s.pt := rfl
@[simp] theorem setWin_forces (s : State) (w : Fin 192) (x : WindowState) : (s.setWin w x).forces = s.forces := rfl
@[simp] theorem setWin_decay (s : State) (w : Fin 192) (x : WindowState) : (s.setWin w x).decay = s.decay := rfl
@[simp] theorem setWin_un (s : State) (w : Fin 192) (x : WindowState) : (s.setWin w x).un = s.un := rfl
@[simp] theorem setWin_grp (s : State) (w : Fin 192) (x : WindowState) : (s.setWin w x).grp = s.grp := rfl
@[simp] theorem setWin_frameClock (s : State) (w : Fin 192) (x : WindowState) : (s.setWin w x).frameClock = s.frameClock := rfl
@[simp] theorem setWin_pan (s : State) (w : Fin 192) (x : WindowState) : (s.setWin w x).pan = s.pan := rfl
@[simp] theorem setWin_eqn (s : State) (w : Fin 192) (x : WindowState) : (s.setWin w x).eqn = s.eqn := rfl
@[simp] theorem setWin_out (s : State) (w : Fin 192) (x : WindowState) : (s.setWin w x).out = s.out := rfl
@[simp] theorem setWin_clock (s : State) (w : Fin 192) (x : WindowState) : (s.setWin w x).clock = s.clock := rfl
@[simp] theorem setWin_log (s : State) (w : Fin 192) (x : WindowState) : (s.setWin w x).log = s.log := rfl
@[simp] theorem setWin_link (s : State) (w : Fin 192) (x : WindowState) : (s.setWin w x).link = s.link := rfl
@[simp] theorem setWin_news (s : State) (w : Fin 192) (x : WindowState) : (s.setWin w x).news = s.news := rfl
@[simp] theorem setWin_store (s : State) (w : Fin 192) (x : WindowState) : (s.setWin w x).store = s.store := rfl
@[simp] theorem setWin_pending (s : State) (w : Fin 192) (x : WindowState) : (s.setWin w x).pending = s.pending := rfl
@[simp] theorem setWin_stamp (s : State) (w : Fin 192) (x : WindowState) : (s.setWin w x).stamp = s.stamp := rfl
@[simp] theorem setWin_operating (s : State) (w : Fin 192) (x : WindowState) : (s.setWin w x).operating = s.operating := rfl

/-! ### modGrp -/

@[simp] theorem modGrp_now (s : State) (g : Fin 16) (f : GroupRun → GroupRun) : (s.modGrp g f).now = s.now := rfl
@[simp] theorem modGrp_draws (s : State) (g : Fin 16) (f : GroupRun → GroupRun) : (s.modGrp g f).draws = s.draws := rfl
@[simp] theorem modGrp_service (s : State) (g : Fin 16) (f : GroupRun → GroupRun) : (s.modGrp g f).service = s.service := rfl
@[simp] theorem modGrp_settle (s : State) (g : Fin 16) (f : GroupRun → GroupRun) : (s.modGrp g f).settle = s.settle := rfl
@[simp] theorem modGrp_cfg (s : State) (g : Fin 16) (f : GroupRun → GroupRun) : (s.modGrp g f).cfg = s.cfg := rfl
@[simp] theorem modGrp_pt (s : State) (g : Fin 16) (f : GroupRun → GroupRun) : (s.modGrp g f).pt = s.pt := rfl
@[simp] theorem modGrp_forces (s : State) (g : Fin 16) (f : GroupRun → GroupRun) : (s.modGrp g f).forces = s.forces := rfl
@[simp] theorem modGrp_decay (s : State) (g : Fin 16) (f : GroupRun → GroupRun) : (s.modGrp g f).decay = s.decay := rfl
@[simp] theorem modGrp_un (s : State) (g : Fin 16) (f : GroupRun → GroupRun) : (s.modGrp g f).un = s.un := rfl
@[simp] theorem modGrp_win (s : State) (g : Fin 16) (f : GroupRun → GroupRun) : (s.modGrp g f).win = s.win := rfl
@[simp] theorem modGrp_frameClock (s : State) (g : Fin 16) (f : GroupRun → GroupRun) : (s.modGrp g f).frameClock = s.frameClock := rfl
@[simp] theorem modGrp_pan (s : State) (g : Fin 16) (f : GroupRun → GroupRun) : (s.modGrp g f).pan = s.pan := rfl
@[simp] theorem modGrp_eqn (s : State) (g : Fin 16) (f : GroupRun → GroupRun) : (s.modGrp g f).eqn = s.eqn := rfl
@[simp] theorem modGrp_out (s : State) (g : Fin 16) (f : GroupRun → GroupRun) : (s.modGrp g f).out = s.out := rfl
@[simp] theorem modGrp_clock (s : State) (g : Fin 16) (f : GroupRun → GroupRun) : (s.modGrp g f).clock = s.clock := rfl
@[simp] theorem modGrp_log (s : State) (g : Fin 16) (f : GroupRun → GroupRun) : (s.modGrp g f).log = s.log := rfl
@[simp] theorem modGrp_link (s : State) (g : Fin 16) (f : GroupRun → GroupRun) : (s.modGrp g f).link = s.link := rfl
@[simp] theorem modGrp_news (s : State) (g : Fin 16) (f : GroupRun → GroupRun) : (s.modGrp g f).news = s.news := rfl
@[simp] theorem modGrp_store (s : State) (g : Fin 16) (f : GroupRun → GroupRun) : (s.modGrp g f).store = s.store := rfl
@[simp] theorem modGrp_pending (s : State) (g : Fin 16) (f : GroupRun → GroupRun) : (s.modGrp g f).pending = s.pending := rfl
@[simp] theorem modGrp_stamp (s : State) (g : Fin 16) (f : GroupRun → GroupRun) : (s.modGrp g f).stamp = s.stamp := rfl
@[simp] theorem modGrp_operating (s : State) (g : Fin 16) (f : GroupRun → GroupRun) : (s.modGrp g f).operating = s.operating := rfl

/-! ### modPan -/

@[simp] theorem modPan_now (s : State) (p : Fin 4) (f : PanelRun → PanelRun) : (s.modPan p f).now = s.now := rfl
@[simp] theorem modPan_draws (s : State) (p : Fin 4) (f : PanelRun → PanelRun) : (s.modPan p f).draws = s.draws := rfl
@[simp] theorem modPan_service (s : State) (p : Fin 4) (f : PanelRun → PanelRun) : (s.modPan p f).service = s.service := rfl
@[simp] theorem modPan_settle (s : State) (p : Fin 4) (f : PanelRun → PanelRun) : (s.modPan p f).settle = s.settle := rfl
@[simp] theorem modPan_cfg (s : State) (p : Fin 4) (f : PanelRun → PanelRun) : (s.modPan p f).cfg = s.cfg := rfl
@[simp] theorem modPan_pt (s : State) (p : Fin 4) (f : PanelRun → PanelRun) : (s.modPan p f).pt = s.pt := rfl
@[simp] theorem modPan_forces (s : State) (p : Fin 4) (f : PanelRun → PanelRun) : (s.modPan p f).forces = s.forces := rfl
@[simp] theorem modPan_decay (s : State) (p : Fin 4) (f : PanelRun → PanelRun) : (s.modPan p f).decay = s.decay := rfl
@[simp] theorem modPan_un (s : State) (p : Fin 4) (f : PanelRun → PanelRun) : (s.modPan p f).un = s.un := rfl
@[simp] theorem modPan_win (s : State) (p : Fin 4) (f : PanelRun → PanelRun) : (s.modPan p f).win = s.win := rfl
@[simp] theorem modPan_grp (s : State) (p : Fin 4) (f : PanelRun → PanelRun) : (s.modPan p f).grp = s.grp := rfl
@[simp] theorem modPan_frameClock (s : State) (p : Fin 4) (f : PanelRun → PanelRun) : (s.modPan p f).frameClock = s.frameClock := rfl
@[simp] theorem modPan_eqn (s : State) (p : Fin 4) (f : PanelRun → PanelRun) : (s.modPan p f).eqn = s.eqn := rfl
@[simp] theorem modPan_out (s : State) (p : Fin 4) (f : PanelRun → PanelRun) : (s.modPan p f).out = s.out := rfl
@[simp] theorem modPan_clock (s : State) (p : Fin 4) (f : PanelRun → PanelRun) : (s.modPan p f).clock = s.clock := rfl
@[simp] theorem modPan_log (s : State) (p : Fin 4) (f : PanelRun → PanelRun) : (s.modPan p f).log = s.log := rfl
@[simp] theorem modPan_link (s : State) (p : Fin 4) (f : PanelRun → PanelRun) : (s.modPan p f).link = s.link := rfl
@[simp] theorem modPan_news (s : State) (p : Fin 4) (f : PanelRun → PanelRun) : (s.modPan p f).news = s.news := rfl
@[simp] theorem modPan_store (s : State) (p : Fin 4) (f : PanelRun → PanelRun) : (s.modPan p f).store = s.store := rfl
@[simp] theorem modPan_pending (s : State) (p : Fin 4) (f : PanelRun → PanelRun) : (s.modPan p f).pending = s.pending := rfl
@[simp] theorem modPan_stamp (s : State) (p : Fin 4) (f : PanelRun → PanelRun) : (s.modPan p f).stamp = s.stamp := rfl
@[simp] theorem modPan_operating (s : State) (p : Fin 4) (f : PanelRun → PanelRun) : (s.modPan p f).operating = s.operating := rfl

/-! ### modEqn -/

@[simp] theorem modEqn_now (s : State) (k : Fin 32) (f : EquationRun → EquationRun) : (s.modEqn k f).now = s.now := rfl
@[simp] theorem modEqn_draws (s : State) (k : Fin 32) (f : EquationRun → EquationRun) : (s.modEqn k f).draws = s.draws := rfl
@[simp] theorem modEqn_service (s : State) (k : Fin 32) (f : EquationRun → EquationRun) : (s.modEqn k f).service = s.service := rfl
@[simp] theorem modEqn_settle (s : State) (k : Fin 32) (f : EquationRun → EquationRun) : (s.modEqn k f).settle = s.settle := rfl
@[simp] theorem modEqn_cfg (s : State) (k : Fin 32) (f : EquationRun → EquationRun) : (s.modEqn k f).cfg = s.cfg := rfl
@[simp] theorem modEqn_pt (s : State) (k : Fin 32) (f : EquationRun → EquationRun) : (s.modEqn k f).pt = s.pt := rfl
@[simp] theorem modEqn_forces (s : State) (k : Fin 32) (f : EquationRun → EquationRun) : (s.modEqn k f).forces = s.forces := rfl
@[simp] theorem modEqn_decay (s : State) (k : Fin 32) (f : EquationRun → EquationRun) : (s.modEqn k f).decay = s.decay := rfl
@[simp] theorem modEqn_un (s : State) (k : Fin 32) (f : EquationRun → EquationRun) : (s.modEqn k f).un = s.un := rfl
@[simp] theorem modEqn_win (s : State) (k : Fin 32) (f : EquationRun → EquationRun) : (s.modEqn k f).win = s.win := rfl
@[simp] theorem modEqn_grp (s : State) (k : Fin 32) (f : EquationRun → EquationRun) : (s.modEqn k f).grp = s.grp := rfl
@[simp] theorem modEqn_frameClock (s : State) (k : Fin 32) (f : EquationRun → EquationRun) : (s.modEqn k f).frameClock = s.frameClock := rfl
@[simp] theorem modEqn_pan (s : State) (k : Fin 32) (f : EquationRun → EquationRun) : (s.modEqn k f).pan = s.pan := rfl
@[simp] theorem modEqn_out (s : State) (k : Fin 32) (f : EquationRun → EquationRun) : (s.modEqn k f).out = s.out := rfl
@[simp] theorem modEqn_clock (s : State) (k : Fin 32) (f : EquationRun → EquationRun) : (s.modEqn k f).clock = s.clock := rfl
@[simp] theorem modEqn_log (s : State) (k : Fin 32) (f : EquationRun → EquationRun) : (s.modEqn k f).log = s.log := rfl
@[simp] theorem modEqn_link (s : State) (k : Fin 32) (f : EquationRun → EquationRun) : (s.modEqn k f).link = s.link := rfl
@[simp] theorem modEqn_news (s : State) (k : Fin 32) (f : EquationRun → EquationRun) : (s.modEqn k f).news = s.news := rfl
@[simp] theorem modEqn_store (s : State) (k : Fin 32) (f : EquationRun → EquationRun) : (s.modEqn k f).store = s.store := rfl
@[simp] theorem modEqn_pending (s : State) (k : Fin 32) (f : EquationRun → EquationRun) : (s.modEqn k f).pending = s.pending := rfl
@[simp] theorem modEqn_stamp (s : State) (k : Fin 32) (f : EquationRun → EquationRun) : (s.modEqn k f).stamp = s.stamp := rfl
@[simp] theorem modEqn_operating (s : State) (k : Fin 32) (f : EquationRun → EquationRun) : (s.modEqn k f).operating = s.operating := rfl

/-! ### modOut -/

@[simp] theorem modOut_now (s : State) (o : Fin 16) (f : OutputRun → OutputRun) : (s.modOut o f).now = s.now := rfl
@[simp] theorem modOut_draws (s : State) (o : Fin 16) (f : OutputRun → OutputRun) : (s.modOut o f).draws = s.draws := rfl
@[simp] theorem modOut_service (s : State) (o : Fin 16) (f : OutputRun → OutputRun) : (s.modOut o f).service = s.service := rfl
@[simp] theorem modOut_settle (s : State) (o : Fin 16) (f : OutputRun → OutputRun) : (s.modOut o f).settle = s.settle := rfl
@[simp] theorem modOut_cfg (s : State) (o : Fin 16) (f : OutputRun → OutputRun) : (s.modOut o f).cfg = s.cfg := rfl
@[simp] theorem modOut_pt (s : State) (o : Fin 16) (f : OutputRun → OutputRun) : (s.modOut o f).pt = s.pt := rfl
@[simp] theorem modOut_forces (s : State) (o : Fin 16) (f : OutputRun → OutputRun) : (s.modOut o f).forces = s.forces := rfl
@[simp] theorem modOut_decay (s : State) (o : Fin 16) (f : OutputRun → OutputRun) : (s.modOut o f).decay = s.decay := rfl
@[simp] theorem modOut_un (s : State) (o : Fin 16) (f : OutputRun → OutputRun) : (s.modOut o f).un = s.un := rfl
@[simp] theorem modOut_win (s : State) (o : Fin 16) (f : OutputRun → OutputRun) : (s.modOut o f).win = s.win := rfl
@[simp] theorem modOut_grp (s : State) (o : Fin 16) (f : OutputRun → OutputRun) : (s.modOut o f).grp = s.grp := rfl
@[simp] theorem modOut_frameClock (s : State) (o : Fin 16) (f : OutputRun → OutputRun) : (s.modOut o f).frameClock = s.frameClock := rfl
@[simp] theorem modOut_pan (s : State) (o : Fin 16) (f : OutputRun → OutputRun) : (s.modOut o f).pan = s.pan := rfl
@[simp] theorem modOut_eqn (s : State) (o : Fin 16) (f : OutputRun → OutputRun) : (s.modOut o f).eqn = s.eqn := rfl
@[simp] theorem modOut_clock (s : State) (o : Fin 16) (f : OutputRun → OutputRun) : (s.modOut o f).clock = s.clock := rfl
@[simp] theorem modOut_log (s : State) (o : Fin 16) (f : OutputRun → OutputRun) : (s.modOut o f).log = s.log := rfl
@[simp] theorem modOut_link (s : State) (o : Fin 16) (f : OutputRun → OutputRun) : (s.modOut o f).link = s.link := rfl
@[simp] theorem modOut_news (s : State) (o : Fin 16) (f : OutputRun → OutputRun) : (s.modOut o f).news = s.news := rfl
@[simp] theorem modOut_store (s : State) (o : Fin 16) (f : OutputRun → OutputRun) : (s.modOut o f).store = s.store := rfl
@[simp] theorem modOut_pending (s : State) (o : Fin 16) (f : OutputRun → OutputRun) : (s.modOut o f).pending = s.pending := rfl
@[simp] theorem modOut_stamp (s : State) (o : Fin 16) (f : OutputRun → OutputRun) : (s.modOut o f).stamp = s.stamp := rfl
@[simp] theorem modOut_operating (s : State) (o : Fin 16) (f : OutputRun → OutputRun) : (s.modOut o f).operating = s.operating := rfl

/-! ### modNews -/

@[simp] theorem modNews_now (s : State) (u : Fin 9) (f : News → News) : (s.modNews u f).now = s.now := rfl
@[simp] theorem modNews_draws (s : State) (u : Fin 9) (f : News → News) : (s.modNews u f).draws = s.draws := rfl
@[simp] theorem modNews_service (s : State) (u : Fin 9) (f : News → News) : (s.modNews u f).service = s.service := rfl
@[simp] theorem modNews_settle (s : State) (u : Fin 9) (f : News → News) : (s.modNews u f).settle = s.settle := rfl
@[simp] theorem modNews_cfg (s : State) (u : Fin 9) (f : News → News) : (s.modNews u f).cfg = s.cfg := rfl
@[simp] theorem modNews_pt (s : State) (u : Fin 9) (f : News → News) : (s.modNews u f).pt = s.pt := rfl
@[simp] theorem modNews_forces (s : State) (u : Fin 9) (f : News → News) : (s.modNews u f).forces = s.forces := rfl
@[simp] theorem modNews_decay (s : State) (u : Fin 9) (f : News → News) : (s.modNews u f).decay = s.decay := rfl
@[simp] theorem modNews_un (s : State) (u : Fin 9) (f : News → News) : (s.modNews u f).un = s.un := rfl
@[simp] theorem modNews_win (s : State) (u : Fin 9) (f : News → News) : (s.modNews u f).win = s.win := rfl
@[simp] theorem modNews_grp (s : State) (u : Fin 9) (f : News → News) : (s.modNews u f).grp = s.grp := rfl
@[simp] theorem modNews_frameClock (s : State) (u : Fin 9) (f : News → News) : (s.modNews u f).frameClock = s.frameClock := rfl
@[simp] theorem modNews_pan (s : State) (u : Fin 9) (f : News → News) : (s.modNews u f).pan = s.pan := rfl
@[simp] theorem modNews_eqn (s : State) (u : Fin 9) (f : News → News) : (s.modNews u f).eqn = s.eqn := rfl
@[simp] theorem modNews_out (s : State) (u : Fin 9) (f : News → News) : (s.modNews u f).out = s.out := rfl
@[simp] theorem modNews_clock (s : State) (u : Fin 9) (f : News → News) : (s.modNews u f).clock = s.clock := rfl
@[simp] theorem modNews_log (s : State) (u : Fin 9) (f : News → News) : (s.modNews u f).log = s.log := rfl
@[simp] theorem modNews_link (s : State) (u : Fin 9) (f : News → News) : (s.modNews u f).link = s.link := rfl
@[simp] theorem modNews_store (s : State) (u : Fin 9) (f : News → News) : (s.modNews u f).store = s.store := rfl
@[simp] theorem modNews_pending (s : State) (u : Fin 9) (f : News → News) : (s.modNews u f).pending = s.pending := rfl
@[simp] theorem modNews_stamp (s : State) (u : Fin 9) (f : News → News) : (s.modNews u f).stamp = s.stamp := rfl
@[simp] theorem modNews_operating (s : State) (u : Fin 9) (f : News → News) : (s.modNews u f).operating = s.operating := rfl

/-! ### setNews -/

@[simp] theorem setNews_now (s : State) (u : Fin 9) (k : NewsKind) : (s.setNews u k).now = s.now := rfl
@[simp] theorem setNews_draws (s : State) (u : Fin 9) (k : NewsKind) : (s.setNews u k).draws = s.draws := rfl
@[simp] theorem setNews_service (s : State) (u : Fin 9) (k : NewsKind) : (s.setNews u k).service = s.service := rfl
@[simp] theorem setNews_settle (s : State) (u : Fin 9) (k : NewsKind) : (s.setNews u k).settle = s.settle := rfl
@[simp] theorem setNews_cfg (s : State) (u : Fin 9) (k : NewsKind) : (s.setNews u k).cfg = s.cfg := rfl
@[simp] theorem setNews_pt (s : State) (u : Fin 9) (k : NewsKind) : (s.setNews u k).pt = s.pt := rfl
@[simp] theorem setNews_forces (s : State) (u : Fin 9) (k : NewsKind) : (s.setNews u k).forces = s.forces := rfl
@[simp] theorem setNews_decay (s : State) (u : Fin 9) (k : NewsKind) : (s.setNews u k).decay = s.decay := rfl
@[simp] theorem setNews_un (s : State) (u : Fin 9) (k : NewsKind) : (s.setNews u k).un = s.un := rfl
@[simp] theorem setNews_win (s : State) (u : Fin 9) (k : NewsKind) : (s.setNews u k).win = s.win := rfl
@[simp] theorem setNews_grp (s : State) (u : Fin 9) (k : NewsKind) : (s.setNews u k).grp = s.grp := rfl
@[simp] theorem setNews_frameClock (s : State) (u : Fin 9) (k : NewsKind) : (s.setNews u k).frameClock = s.frameClock := rfl
@[simp] theorem setNews_pan (s : State) (u : Fin 9) (k : NewsKind) : (s.setNews u k).pan = s.pan := rfl
@[simp] theorem setNews_eqn (s : State) (u : Fin 9) (k : NewsKind) : (s.setNews u k).eqn = s.eqn := rfl
@[simp] theorem setNews_out (s : State) (u : Fin 9) (k : NewsKind) : (s.setNews u k).out = s.out := rfl
@[simp] theorem setNews_clock (s : State) (u : Fin 9) (k : NewsKind) : (s.setNews u k).clock = s.clock := rfl
@[simp] theorem setNews_log (s : State) (u : Fin 9) (k : NewsKind) : (s.setNews u k).log = s.log := rfl
@[simp] theorem setNews_link (s : State) (u : Fin 9) (k : NewsKind) : (s.setNews u k).link = s.link := rfl
@[simp] theorem setNews_store (s : State) (u : Fin 9) (k : NewsKind) : (s.setNews u k).store = s.store := rfl
@[simp] theorem setNews_pending (s : State) (u : Fin 9) (k : NewsKind) : (s.setNews u k).pending = s.pending := rfl
@[simp] theorem setNews_stamp (s : State) (u : Fin 9) (k : NewsKind) : (s.setNews u k).stamp = s.stamp := rfl
@[simp] theorem setNews_operating (s : State) (u : Fin 9) (k : NewsKind) : (s.setNews u k).operating = s.operating := rfl

/-! ### setClock -/

@[simp] theorem setClock_now (s : State) (c : HallClock) : (s.setClock c).now = s.now := rfl
@[simp] theorem setClock_draws (s : State) (c : HallClock) : (s.setClock c).draws = s.draws := rfl
@[simp] theorem setClock_service (s : State) (c : HallClock) : (s.setClock c).service = s.service := rfl
@[simp] theorem setClock_settle (s : State) (c : HallClock) : (s.setClock c).settle = s.settle := rfl
@[simp] theorem setClock_cfg (s : State) (c : HallClock) : (s.setClock c).cfg = s.cfg := rfl
@[simp] theorem setClock_pt (s : State) (c : HallClock) : (s.setClock c).pt = s.pt := rfl
@[simp] theorem setClock_forces (s : State) (c : HallClock) : (s.setClock c).forces = s.forces := rfl
@[simp] theorem setClock_decay (s : State) (c : HallClock) : (s.setClock c).decay = s.decay := rfl
@[simp] theorem setClock_un (s : State) (c : HallClock) : (s.setClock c).un = s.un := rfl
@[simp] theorem setClock_win (s : State) (c : HallClock) : (s.setClock c).win = s.win := rfl
@[simp] theorem setClock_grp (s : State) (c : HallClock) : (s.setClock c).grp = s.grp := rfl
@[simp] theorem setClock_frameClock (s : State) (c : HallClock) : (s.setClock c).frameClock = s.frameClock := rfl
@[simp] theorem setClock_pan (s : State) (c : HallClock) : (s.setClock c).pan = s.pan := rfl
@[simp] theorem setClock_eqn (s : State) (c : HallClock) : (s.setClock c).eqn = s.eqn := rfl
@[simp] theorem setClock_out (s : State) (c : HallClock) : (s.setClock c).out = s.out := rfl
@[simp] theorem setClock_clock (s : State) (c : HallClock) : (s.setClock c).clock = c := rfl
@[simp] theorem setClock_log (s : State) (c : HallClock) : (s.setClock c).log = s.log := rfl
@[simp] theorem setClock_link (s : State) (c : HallClock) : (s.setClock c).link = s.link := rfl
@[simp] theorem setClock_news (s : State) (c : HallClock) : (s.setClock c).news = s.news := rfl
@[simp] theorem setClock_store (s : State) (c : HallClock) : (s.setClock c).store = s.store := rfl
@[simp] theorem setClock_pending (s : State) (c : HallClock) : (s.setClock c).pending = s.pending := rfl
@[simp] theorem setClock_operating (s : State) (c : HallClock) : (s.setClock c).operating = s.operating := rfl

/-! ### setLink -/

@[simp] theorem setLink_now (s : State) (l : LinkRun) : (s.setLink l).now = s.now := rfl
@[simp] theorem setLink_draws (s : State) (l : LinkRun) : (s.setLink l).draws = s.draws := rfl
@[simp] theorem setLink_service (s : State) (l : LinkRun) : (s.setLink l).service = s.service := rfl
@[simp] theorem setLink_settle (s : State) (l : LinkRun) : (s.setLink l).settle = s.settle := rfl
@[simp] theorem setLink_cfg (s : State) (l : LinkRun) : (s.setLink l).cfg = s.cfg := rfl
@[simp] theorem setLink_pt (s : State) (l : LinkRun) : (s.setLink l).pt = s.pt := rfl
@[simp] theorem setLink_forces (s : State) (l : LinkRun) : (s.setLink l).forces = s.forces := rfl
@[simp] theorem setLink_decay (s : State) (l : LinkRun) : (s.setLink l).decay = s.decay := rfl
@[simp] theorem setLink_un (s : State) (l : LinkRun) : (s.setLink l).un = s.un := rfl
@[simp] theorem setLink_win (s : State) (l : LinkRun) : (s.setLink l).win = s.win := rfl
@[simp] theorem setLink_grp (s : State) (l : LinkRun) : (s.setLink l).grp = s.grp := rfl
@[simp] theorem setLink_frameClock (s : State) (l : LinkRun) : (s.setLink l).frameClock = s.frameClock := rfl
@[simp] theorem setLink_pan (s : State) (l : LinkRun) : (s.setLink l).pan = s.pan := rfl
@[simp] theorem setLink_eqn (s : State) (l : LinkRun) : (s.setLink l).eqn = s.eqn := rfl
@[simp] theorem setLink_out (s : State) (l : LinkRun) : (s.setLink l).out = s.out := rfl
@[simp] theorem setLink_clock (s : State) (l : LinkRun) : (s.setLink l).clock = s.clock := rfl
@[simp] theorem setLink_log (s : State) (l : LinkRun) : (s.setLink l).log = s.log := rfl
@[simp] theorem setLink_link (s : State) (l : LinkRun) : (s.setLink l).link = l := rfl
@[simp] theorem setLink_news (s : State) (l : LinkRun) : (s.setLink l).news = s.news := rfl
@[simp] theorem setLink_store (s : State) (l : LinkRun) : (s.setLink l).store = s.store := rfl
@[simp] theorem setLink_pending (s : State) (l : LinkRun) : (s.setLink l).pending = s.pending := rfl
@[simp] theorem setLink_stamp (s : State) (l : LinkRun) : (s.setLink l).stamp = s.stamp := rfl
@[simp] theorem setLink_operating (s : State) (l : LinkRun) : (s.setLink l).operating = s.operating := rfl

/-! ### setStore -/

@[simp] theorem setStore_now (s : State) (x : StoreRun) : (s.setStore x).now = s.now := rfl
@[simp] theorem setStore_draws (s : State) (x : StoreRun) : (s.setStore x).draws = s.draws := rfl
@[simp] theorem setStore_service (s : State) (x : StoreRun) : (s.setStore x).service = s.service := rfl
@[simp] theorem setStore_settle (s : State) (x : StoreRun) : (s.setStore x).settle = s.settle := rfl
@[simp] theorem setStore_cfg (s : State) (x : StoreRun) : (s.setStore x).cfg = s.cfg := rfl
@[simp] theorem setStore_pt (s : State) (x : StoreRun) : (s.setStore x).pt = s.pt := rfl
@[simp] theorem setStore_forces (s : State) (x : StoreRun) : (s.setStore x).forces = s.forces := rfl
@[simp] theorem setStore_decay (s : State) (x : StoreRun) : (s.setStore x).decay = s.decay := rfl
@[simp] theorem setStore_un (s : State) (x : StoreRun) : (s.setStore x).un = s.un := rfl
@[simp] theorem setStore_win (s : State) (x : StoreRun) : (s.setStore x).win = s.win := rfl
@[simp] theorem setStore_grp (s : State) (x : StoreRun) : (s.setStore x).grp = s.grp := rfl
@[simp] theorem setStore_frameClock (s : State) (x : StoreRun) : (s.setStore x).frameClock = s.frameClock := rfl
@[simp] theorem setStore_pan (s : State) (x : StoreRun) : (s.setStore x).pan = s.pan := rfl
@[simp] theorem setStore_eqn (s : State) (x : StoreRun) : (s.setStore x).eqn = s.eqn := rfl
@[simp] theorem setStore_out (s : State) (x : StoreRun) : (s.setStore x).out = s.out := rfl
@[simp] theorem setStore_clock (s : State) (x : StoreRun) : (s.setStore x).clock = s.clock := rfl
@[simp] theorem setStore_log (s : State) (x : StoreRun) : (s.setStore x).log = s.log := rfl
@[simp] theorem setStore_link (s : State) (x : StoreRun) : (s.setStore x).link = s.link := rfl
@[simp] theorem setStore_news (s : State) (x : StoreRun) : (s.setStore x).news = s.news := rfl
@[simp] theorem setStore_store (s : State) (x : StoreRun) : (s.setStore x).store = x := rfl
@[simp] theorem setStore_pending (s : State) (x : StoreRun) : (s.setStore x).pending = s.pending := rfl
@[simp] theorem setStore_stamp (s : State) (x : StoreRun) : (s.setStore x).stamp = s.stamp := rfl
@[simp] theorem setStore_operating (s : State) (x : StoreRun) : (s.setStore x).operating = s.operating := rfl

/-! ### setForces -/

@[simp] theorem setForces_now (s : State) (fs : List ForceEntry) : (s.setForces fs).now = s.now := rfl
@[simp] theorem setForces_draws (s : State) (fs : List ForceEntry) : (s.setForces fs).draws = s.draws := rfl
@[simp] theorem setForces_service (s : State) (fs : List ForceEntry) : (s.setForces fs).service = s.service := rfl
@[simp] theorem setForces_settle (s : State) (fs : List ForceEntry) : (s.setForces fs).settle = s.settle := rfl
@[simp] theorem setForces_cfg (s : State) (fs : List ForceEntry) : (s.setForces fs).cfg = s.cfg := rfl
@[simp] theorem setForces_pt (s : State) (fs : List ForceEntry) : (s.setForces fs).pt = s.pt := rfl
@[simp] theorem setForces_forces (s : State) (fs : List ForceEntry) : (s.setForces fs).forces = fs := rfl
@[simp] theorem setForces_decay (s : State) (fs : List ForceEntry) : (s.setForces fs).decay = s.decay := rfl
@[simp] theorem setForces_un (s : State) (fs : List ForceEntry) : (s.setForces fs).un = s.un := rfl
@[simp] theorem setForces_win (s : State) (fs : List ForceEntry) : (s.setForces fs).win = s.win := rfl
@[simp] theorem setForces_grp (s : State) (fs : List ForceEntry) : (s.setForces fs).grp = s.grp := rfl
@[simp] theorem setForces_frameClock (s : State) (fs : List ForceEntry) : (s.setForces fs).frameClock = s.frameClock := rfl
@[simp] theorem setForces_pan (s : State) (fs : List ForceEntry) : (s.setForces fs).pan = s.pan := rfl
@[simp] theorem setForces_eqn (s : State) (fs : List ForceEntry) : (s.setForces fs).eqn = s.eqn := rfl
@[simp] theorem setForces_out (s : State) (fs : List ForceEntry) : (s.setForces fs).out = s.out := rfl
@[simp] theorem setForces_clock (s : State) (fs : List ForceEntry) : (s.setForces fs).clock = s.clock := rfl
@[simp] theorem setForces_log (s : State) (fs : List ForceEntry) : (s.setForces fs).log = s.log := rfl
@[simp] theorem setForces_link (s : State) (fs : List ForceEntry) : (s.setForces fs).link = s.link := rfl
@[simp] theorem setForces_news (s : State) (fs : List ForceEntry) : (s.setForces fs).news = s.news := rfl
@[simp] theorem setForces_store (s : State) (fs : List ForceEntry) : (s.setForces fs).store = s.store := rfl
@[simp] theorem setForces_pending (s : State) (fs : List ForceEntry) : (s.setForces fs).pending = s.pending := rfl
@[simp] theorem setForces_stamp (s : State) (fs : List ForceEntry) : (s.setForces fs).stamp = s.stamp := rfl
@[simp] theorem setForces_operating (s : State) (fs : List ForceEntry) : (s.setForces fs).operating = s.operating := rfl

/-! ### setCfg -/

@[simp] theorem setCfg_now (s : State) (c : Tables) : (s.setCfg c).now = s.now := rfl
@[simp] theorem setCfg_draws (s : State) (c : Tables) : (s.setCfg c).draws = s.draws := rfl
@[simp] theorem setCfg_service (s : State) (c : Tables) : (s.setCfg c).service = s.service := rfl
@[simp] theorem setCfg_settle (s : State) (c : Tables) : (s.setCfg c).settle = s.settle := rfl
@[simp] theorem setCfg_cfg (s : State) (c : Tables) : (s.setCfg c).cfg = c := rfl
@[simp] theorem setCfg_pt (s : State) (c : Tables) : (s.setCfg c).pt = s.pt := rfl
@[simp] theorem setCfg_forces (s : State) (c : Tables) : (s.setCfg c).forces = s.forces := rfl
@[simp] theorem setCfg_decay (s : State) (c : Tables) : (s.setCfg c).decay = s.decay := rfl
@[simp] theorem setCfg_un (s : State) (c : Tables) : (s.setCfg c).un = s.un := rfl
@[simp] theorem setCfg_win (s : State) (c : Tables) : (s.setCfg c).win = s.win := rfl
@[simp] theorem setCfg_grp (s : State) (c : Tables) : (s.setCfg c).grp = s.grp := rfl
@[simp] theorem setCfg_frameClock (s : State) (c : Tables) : (s.setCfg c).frameClock = s.frameClock := rfl
@[simp] theorem setCfg_pan (s : State) (c : Tables) : (s.setCfg c).pan = s.pan := rfl
@[simp] theorem setCfg_eqn (s : State) (c : Tables) : (s.setCfg c).eqn = s.eqn := rfl
@[simp] theorem setCfg_out (s : State) (c : Tables) : (s.setCfg c).out = s.out := rfl
@[simp] theorem setCfg_clock (s : State) (c : Tables) : (s.setCfg c).clock = s.clock := rfl
@[simp] theorem setCfg_log (s : State) (c : Tables) : (s.setCfg c).log = s.log := rfl
@[simp] theorem setCfg_link (s : State) (c : Tables) : (s.setCfg c).link = s.link := rfl
@[simp] theorem setCfg_news (s : State) (c : Tables) : (s.setCfg c).news = s.news := rfl
@[simp] theorem setCfg_store (s : State) (c : Tables) : (s.setCfg c).store = s.store := rfl
@[simp] theorem setCfg_pending (s : State) (c : Tables) : (s.setCfg c).pending = s.pending := rfl
@[simp] theorem setCfg_stamp (s : State) (c : Tables) : (s.setCfg c).stamp = s.stamp := rfl
@[simp] theorem setCfg_operating (s : State) (c : Tables) : (s.setCfg c).operating = s.operating := rfl

/-! ### put -/

@[simp] theorem put_now (s : State) (b : RecordBody) : (s.put b).now = s.now := rfl
@[simp] theorem put_draws (s : State) (b : RecordBody) : (s.put b).draws = s.draws := rfl
@[simp] theorem put_service (s : State) (b : RecordBody) : (s.put b).service = s.service := rfl
@[simp] theorem put_settle (s : State) (b : RecordBody) : (s.put b).settle = s.settle := rfl
@[simp] theorem put_cfg (s : State) (b : RecordBody) : (s.put b).cfg = s.cfg := rfl
@[simp] theorem put_pt (s : State) (b : RecordBody) : (s.put b).pt = s.pt := rfl
@[simp] theorem put_forces (s : State) (b : RecordBody) : (s.put b).forces = s.forces := rfl
@[simp] theorem put_decay (s : State) (b : RecordBody) : (s.put b).decay = s.decay := rfl
@[simp] theorem put_un (s : State) (b : RecordBody) : (s.put b).un = s.un := rfl
@[simp] theorem put_win (s : State) (b : RecordBody) : (s.put b).win = s.win := rfl
@[simp] theorem put_grp (s : State) (b : RecordBody) : (s.put b).grp = s.grp := rfl
@[simp] theorem put_frameClock (s : State) (b : RecordBody) : (s.put b).frameClock = s.frameClock := rfl
@[simp] theorem put_pan (s : State) (b : RecordBody) : (s.put b).pan = s.pan := rfl
@[simp] theorem put_eqn (s : State) (b : RecordBody) : (s.put b).eqn = s.eqn := rfl
@[simp] theorem put_out (s : State) (b : RecordBody) : (s.put b).out = s.out := rfl
@[simp] theorem put_clock (s : State) (b : RecordBody) : (s.put b).clock = s.clock := rfl
@[simp] theorem put_log (s : State) (b : RecordBody) : (s.put b).log = s.log.put s.stamp b := rfl
@[simp] theorem put_link (s : State) (b : RecordBody) : (s.put b).link = s.link := rfl
@[simp] theorem put_news (s : State) (b : RecordBody) : (s.put b).news = s.news := rfl
@[simp] theorem put_store (s : State) (b : RecordBody) : (s.put b).store = s.store := rfl
@[simp] theorem put_pending (s : State) (b : RecordBody) : (s.put b).pending = s.pending := rfl
@[simp] theorem put_stamp (s : State) (b : RecordBody) : (s.put b).stamp = s.stamp := rfl
@[simp] theorem put_operating (s : State) (b : RecordBody) : (s.put b).operating = s.operating := rfl

@[simp] theorem setClock_stamp (s : State) (c : HallClock) : (s.setClock c).stamp = c.stamp := rfl

/-! ### Items of a table after an update -/

@[simp] theorem modPt_pt_getElem (s : State) (p : Fin 268) (f : PointRun → PointRun) (j : Nat) (h : j < 268) :
    (s.modPt p f).pt[j] = if p.val = j then f s.pt[p] else s.pt[j] := Vector_getElem_set_fin ..

theorem modPt_pt_self (s : State) (p : Fin 268) (f : PointRun → PointRun) : (s.modPt p f).pt[p] = f s.pt[p] := by simp

theorem modPt_pt_other (s : State) (p : Fin 268) (f : PointRun → PointRun) (j : Fin 268) (h : j ≠ p) :
    (s.modPt p f).pt[j] = s.pt[j] := by
  have : p.val ≠ j.val := fun e => h (Fin.ext e.symm)
  simp [this]

@[simp] theorem modUn_un_getElem (s : State) (u : Fin 9) (f : UnitRun → UnitRun) (j : Nat) (h : j < 9) :
    (s.modUn u f).un[j] = if u.val = j then f s.un[u] else s.un[j] := Vector_getElem_set_fin ..

theorem modUn_un_self (s : State) (u : Fin 9) (f : UnitRun → UnitRun) : (s.modUn u f).un[u] = f s.un[u] := by simp

theorem modUn_un_other (s : State) (u : Fin 9) (f : UnitRun → UnitRun) (j : Fin 9) (h : j ≠ u) :
    (s.modUn u f).un[j] = s.un[j] := by
  have : u.val ≠ j.val := fun e => h (Fin.ext e.symm)
  simp [this]

@[simp] theorem setWin_win_getElem (s : State) (w : Fin 192) (x : WindowState) (j : Nat) (h : j < 192) :
    (s.setWin w x).win[j] = if w.val = j then x else s.win[j] := Vector_getElem_set_fin ..

theorem setWin_win_self (s : State) (w : Fin 192) (x : WindowState) : (s.setWin w x).win[w] = x := by simp

theorem setWin_win_other (s : State) (w : Fin 192) (x : WindowState) (j : Fin 192) (h : j ≠ w) :
    (s.setWin w x).win[j] = s.win[j] := by
  have : w.val ≠ j.val := fun e => h (Fin.ext e.symm)
  simp [this]

@[simp] theorem modGrp_grp_getElem (s : State) (g : Fin 16) (f : GroupRun → GroupRun) (j : Nat) (h : j < 16) :
    (s.modGrp g f).grp[j] = if g.val = j then f s.grp[g] else s.grp[j] := Vector_getElem_set_fin ..

theorem modGrp_grp_self (s : State) (g : Fin 16) (f : GroupRun → GroupRun) : (s.modGrp g f).grp[g] = f s.grp[g] := by simp

theorem modGrp_grp_other (s : State) (g : Fin 16) (f : GroupRun → GroupRun) (j : Fin 16) (h : j ≠ g) :
    (s.modGrp g f).grp[j] = s.grp[j] := by
  have : g.val ≠ j.val := fun e => h (Fin.ext e.symm)
  simp [this]

@[simp] theorem modPan_pan_getElem (s : State) (p : Fin 4) (f : PanelRun → PanelRun) (j : Nat) (h : j < 4) :
    (s.modPan p f).pan[j] = if p.val = j then f s.pan[p] else s.pan[j] := Vector_getElem_set_fin ..

theorem modPan_pan_self (s : State) (p : Fin 4) (f : PanelRun → PanelRun) : (s.modPan p f).pan[p] = f s.pan[p] := by simp

theorem modPan_pan_other (s : State) (p : Fin 4) (f : PanelRun → PanelRun) (j : Fin 4) (h : j ≠ p) :
    (s.modPan p f).pan[j] = s.pan[j] := by
  have : p.val ≠ j.val := fun e => h (Fin.ext e.symm)
  simp [this]

@[simp] theorem modEqn_eqn_getElem (s : State) (k : Fin 32) (f : EquationRun → EquationRun) (j : Nat) (h : j < 32) :
    (s.modEqn k f).eqn[j] = if k.val = j then f s.eqn[k] else s.eqn[j] := Vector_getElem_set_fin ..

theorem modEqn_eqn_self (s : State) (k : Fin 32) (f : EquationRun → EquationRun) : (s.modEqn k f).eqn[k] = f s.eqn[k] := by simp

theorem modEqn_eqn_other (s : State) (k : Fin 32) (f : EquationRun → EquationRun) (j : Fin 32) (h : j ≠ k) :
    (s.modEqn k f).eqn[j] = s.eqn[j] := by
  have : k.val ≠ j.val := fun e => h (Fin.ext e.symm)
  simp [this]

@[simp] theorem modOut_out_getElem (s : State) (o : Fin 16) (f : OutputRun → OutputRun) (j : Nat) (h : j < 16) :
    (s.modOut o f).out[j] = if o.val = j then f s.out[o] else s.out[j] := Vector_getElem_set_fin ..

theorem modOut_out_self (s : State) (o : Fin 16) (f : OutputRun → OutputRun) : (s.modOut o f).out[o] = f s.out[o] := by simp

theorem modOut_out_other (s : State) (o : Fin 16) (f : OutputRun → OutputRun) (j : Fin 16) (h : j ≠ o) :
    (s.modOut o f).out[j] = s.out[j] := by
  have : o.val ≠ j.val := fun e => h (Fin.ext e.symm)
  simp [this]

@[simp] theorem modNews_news_getElem (s : State) (u : Fin 9) (f : News → News) (j : Nat) (h : j < 9) :
    (s.modNews u f).news[j] = if u.val = j then f s.news[u] else s.news[j] := Vector_getElem_set_fin ..

theorem modNews_news_self (s : State) (u : Fin 9) (f : News → News) : (s.modNews u f).news[u] = f s.news[u] := by simp

theorem modNews_news_other (s : State) (u : Fin 9) (f : News → News) (j : Fin 9) (h : j ≠ u) :
    (s.modNews u f).news[j] = s.news[j] := by
  have : u.val ≠ j.val := fun e => h (Fin.ext e.symm)
  simp [this]

@[simp] theorem setNews_news_getElem (s : State) (u : Fin 9) (k : NewsKind) (j : Nat) (h : j < 9) :
    (s.setNews u k).news[j] = if u.val = j then s.news[u].set k else s.news[j] := Vector_getElem_set_fin ..

theorem setNews_def (s : State) (u : Fin 9) (k : NewsKind) : s.setNews u k = s.modNews u fun n => n.set k := rfl

theorem setSys_def (s : State) (k : Fin 12) (c : Bool) : s.setSys k c = s.modPt (sysPoint k) fun r =>
    { r with raw := c, qual := PointState.ofBit c, lastEdge := s.stamp } := rfl

/-! ### write -/

@[simp] theorem write_now (s : State) (b : RecordBody) : (s.write b).now = s.now := by
  unfold State.write; dsimp only; split <;> rfl
@[simp] theorem write_draws (s : State) (b : RecordBody) : (s.write b).draws = s.draws := by
  unfold State.write; dsimp only; split <;> rfl
@[simp] theorem write_service (s : State) (b : RecordBody) : (s.write b).service = s.service := by
  unfold State.write; dsimp only; split <;> rfl
@[simp] theorem write_settle (s : State) (b : RecordBody) : (s.write b).settle = s.settle := by
  unfold State.write; dsimp only; split <;> rfl
@[simp] theorem write_cfg (s : State) (b : RecordBody) : (s.write b).cfg = s.cfg := by
  unfold State.write; dsimp only; split <;> rfl
@[simp] theorem write_forces (s : State) (b : RecordBody) : (s.write b).forces = s.forces := by
  unfold State.write; dsimp only; split <;> rfl
@[simp] theorem write_decay (s : State) (b : RecordBody) : (s.write b).decay = s.decay := by
  unfold State.write; dsimp only; split <;> rfl
@[simp] theorem write_un (s : State) (b : RecordBody) : (s.write b).un = s.un := by
  unfold State.write; dsimp only; split <;> rfl
@[simp] theorem write_win (s : State) (b : RecordBody) : (s.write b).win = s.win := by
  unfold State.write; dsimp only; split <;> rfl
@[simp] theorem write_grp (s : State) (b : RecordBody) : (s.write b).grp = s.grp := by
  unfold State.write; dsimp only; split <;> rfl
@[simp] theorem write_frameClock (s : State) (b : RecordBody) : (s.write b).frameClock = s.frameClock := by
  unfold State.write; dsimp only; split <;> rfl
@[simp] theorem write_pan (s : State) (b : RecordBody) : (s.write b).pan = s.pan := by
  unfold State.write; dsimp only; split <;> rfl
@[simp] theorem write_eqn (s : State) (b : RecordBody) : (s.write b).eqn = s.eqn := by
  unfold State.write; dsimp only; split <;> rfl
@[simp] theorem write_out (s : State) (b : RecordBody) : (s.write b).out = s.out := by
  unfold State.write; dsimp only; split <;> rfl
@[simp] theorem write_clock (s : State) (b : RecordBody) : (s.write b).clock = s.clock := by
  unfold State.write; dsimp only; split <;> rfl
@[simp] theorem write_link (s : State) (b : RecordBody) : (s.write b).link = s.link := by
  unfold State.write; dsimp only; split <;> rfl
@[simp] theorem write_news (s : State) (b : RecordBody) : (s.write b).news = s.news := by
  unfold State.write; dsimp only; split <;> rfl
@[simp] theorem write_store (s : State) (b : RecordBody) : (s.write b).store = s.store := by
  unfold State.write; dsimp only; split <;> rfl
@[simp] theorem write_pending (s : State) (b : RecordBody) : (s.write b).pending = s.pending := by
  unfold State.write; dsimp only; split <;> rfl
@[simp] theorem write_stamp (s : State) (b : RecordBody) : (s.write b).stamp = s.stamp := by
  unfold State.write; dsimp only; split <;> rfl
@[simp] theorem write_operating (s : State) (b : RecordBody) : (s.write b).operating = s.operating := by
  unfold State.write; dsimp only; split <;> rfl

end Sys2Proof.Machine
end

