-- ==== Sys2Proof/Laws/Log.lean ====
section
/-! SUPPORT. What the log's operations do (08 section 8.5). -/
namespace Sys2Proof.Machine

theorem EventLog.put_store {l : EventLog} (h : l.recs.length < 1023) (t : TimeStamp) (b : RecordBody) :
    l.put t b = l.store t b := by simp [EventLog.put, h]

/-- Where the log has room, the record handed to it is its newest. -/
theorem EventLog.put_recs {l : EventLog} (h : l.recs.length < 1023) (t : TimeStamp) (b : RecordBody) :
    (l.put t b).recs = l.recs ++ [⟨l.next, t, b⟩] := by rw [EventLog.put_store h]; rfl

theorem EventLog.put_next {l : EventLog} (h : l.recs.length < 1023) (t : TimeStamp) (b : RecordBody) :
    (l.put t b).next = l.next + 1 := by rw [EventLog.put_store h]; rfl

theorem EventLog.countLoss_length (t : TimeStamp) (l : EventLog) :
    (l.countLoss t).recs.length = l.recs.length := by
  unfold EventLog.countLoss
  split
  · rename_i r h
    have : l.recs ≠ [] := by intro e; simp [e] at h
    have := List.length_pos_iff.mpr this
    simp; omega
  · rfl

/-- A record handed to the log never shortens it. -/
theorem EventLog.put_length_le (t : TimeStamp) (b : RecordBody) (l : EventLog) :
    l.recs.length ≤ (l.put t b).recs.length := by
  unfold EventLog.put
  split
  · simp [EventLog.store]
  split
  · rw [EventLog.countLoss_length]
  · simp [EventLog.store]

theorem EventLog.put_length_le_succ (t : TimeStamp) (b : RecordBody) (l : EventLog) :
    (l.put t b).recs.length ≤ l.recs.length + 1 := by
  unfold EventLog.put
  split
  · simp [EventLog.store]
  split
  · rw [EventLog.countLoss_length]; omega
  · simp [EventLog.store]

theorem LogRecord.countLoss_isGap (t : TimeStamp) (r : LogRecord) :
    (r.countLoss t).body.isGap = r.body.isGap := by
  unfold LogRecord.countLoss
  split
  · rename_i h; simp [RecordBody.isGap, h]
  · rfl

theorem LogRecord.countLoss_seq (t : TimeStamp) (r : LogRecord) : (r.countLoss t).seq = r.seq := by
  unfold LogRecord.countLoss
  split <;> rfl

theorem EventLog.newestIsGap_append (l : List LogRecord) (r : LogRecord) (n : Word) :
    EventLog.newestIsGap ⟨l ++ [r], n⟩ = r.body.isGap := by simp [EventLog.newestIsGap]

/-- A held record that is no GAP record stays where it is when another is handed on. -/
theorem EventLog.put_keeps {l : EventLog} {i : Nat} {r : LogRecord} (h : l.recs[i]? = some r)
    (hr : r.body.isGap = false) (t : TimeStamp) (b : RecordBody) : (l.put t b).recs[i]? = some r := by
  have hi : i < l.recs.length := by
    by_contra hc
    rw [List.getElem?_eq_none (by omega)] at h
    exact absurd h (by simp)
  unfold EventLog.put
  split
  · simp [EventLog.store, List.getElem?_append_left hi, h]
  split
  · rename_i _ hg
    unfold EventLog.countLoss
    split
    · rename_i x hx
      have hne : l.recs ≠ [] := by intro e; simp [e] at hx
      have hdl : l.recs.dropLast ++ [x] = l.recs := by
        have := List.dropLast_append_getLast? x hx
        simpa using this
      have hxg : x.body.isGap = true := by simpa [EventLog.newestIsGap, hx] using hg
      have hlt : i < l.recs.dropLast.length := by
        rw [List.length_dropLast]
        by_contra hc
        have : i = l.recs.length - 1 := by omega
        rw [List.getLast?_eq_getElem?, ← this, h] at hx
        have := Option.some.inj hx
        subst this
        simp [hr] at hxg
      show (l.recs.dropLast ++ [x.countLoss t])[i]? = some r
      rw [List.getElem?_append_left hlt]
      rw [← hdl, List.getElem?_append_left hlt] at h
      exact h
    · exact h
  · simp [EventLog.store, List.getElem?_append_left hi, h]

/-- A log that is full stays full when a record is handed to it. -/
theorem EventLog.put_full {l : EventLog} (h : l.full = true) (t : TimeStamp) (b : RecordBody) :
    (l.put t b).full = true := by
  simp only [EventLog.full, Bool.and_eq_true, beq_iff_eq] at h ⊢
  have hlen : ¬ l.recs.length < 1023 := by rw [h.1]; simp [Config.logOrdinary]
  have hput : l.put t b = l.countLoss t := by simp [EventLog.put, hlen, h.2]
  rw [hput, EventLog.countLoss_length]
  refine ⟨h.1, ?_⟩
  unfold EventLog.countLoss
  split
  · rename_i x hx
    rw [EventLog.newestIsGap_append, LogRecord.countLoss_isGap]
    simpa [EventLog.newestIsGap, hx] using h.2
  · exact h.2

/-- A log with fewer than 1024 records is not full. -/
theorem EventLog.not_full {l : EventLog} (h : l.recs.length ≤ 1023) : l.full = false := by
  simp only [EventLog.full, Config.logOrdinary, Bool.and_eq_false_iff, beq_eq_false_iff_ne]
  left; omega

/-- A release that ends the full state leaves a GAP as the newest record or none at all. -/
theorem EventLog.release_newest {l : EventLog} (h : l.newestIsGap = true) (k : Nat) :
    (l.release k).newestIsGap = true := by
  have hne : l.recs ≠ [] := by intro e; simp [EventLog.newestIsGap, e] at h
  have hlt : l.releasable k < l.recs.length := by
    have := List.length_pos_iff.mpr hne
    simp only [EventLog.releasable, h, if_true]
    omega
  unfold EventLog.newestIsGap at h ⊢
  unfold EventLog.release
  rwa [List.getLast?_drop, if_neg (by omega)]

/-- Point 261's own record after a release changes nothing of whether the log is full: it is stored or
counted after a full log, whose newest record is a GAP, and a full log stays full (R148). -/
theorem EventLog.release_put_full {l : EventLog} {k : Nat}
    (h : (l.release k).full = false → l.full = true) (t : TimeStamp) (b : RecordBody) :
    ((l.release k).put t b).full = (l.release k).full := by
  by_cases hr : (l.release k).full = true
  · rw [EventLog.put_full hr, hr]
  simp only [Bool.not_eq_true] at hr
  have hl := h hr
  simp only [EventLog.full, Bool.and_eq_true, beq_iff_eq] at hl
  have hg := EventLog.release_newest hl.2 k
  have hlen : (l.release k).recs.length ≠ 1024 := by
    intro e
    rw [EventLog.full, hg, e] at hr
    exact absurd hr (by decide)
  rw [hr]
  have hle : (l.release k).recs.length ≤ 1024 := by
    rw [EventLog.release, List.length_drop]
    simp only [Config.logOrdinary] at hl
    omega
  apply EventLog.not_full
  unfold EventLog.put
  split
  · simp only [EventLog.store, List.length_append, List.length_singleton]
    simp only [Config.logOrdinary] at *
    omega
  · rw [EventLog.countLoss_length]
    omega

/-! ### The law of the log (R146) -/

theorem seqRise_append (l : List LogRecord) (r : LogRecord) (n : Word) (h : seqRise l n = true)
    (hn : l ≠ [] → r.seq = n) : seqRise (l ++ [r]) (r.seq + 1) = true := by
  induction l with
  | nil => simp [seqRise]
  | cons a l ih =>
    cases l with
    | nil =>
      simp only [seqRise, beq_iff_eq] at h
      simp only [List.cons_append, List.nil_append, seqRise, Bool.and_eq_true, beq_iff_eq, and_true]
      rw [h, hn (by simp)]
    | cons b l =>
      simp only [seqRise, Bool.and_eq_true, beq_iff_eq] at h
      simp only [List.cons_append, seqRise, Bool.and_eq_true, beq_iff_eq]
      exact ⟨h.1, ih h.2 fun _ => hn (by simp)⟩

theorem noGapPair_append (l : List LogRecord) (r : LogRecord) (h : noGapPair l = true)
    (hg : r.body.isGap = true → (l.getLast?.all fun x => !x.body.isGap) = true) :
    noGapPair (l ++ [r]) = true := by
  induction l with
  | nil => rfl
  | cons a l ih =>
    cases l with
    | nil =>
      simp only [List.cons_append, List.nil_append, noGapPair, Bool.and_true, Bool.not_eq_true',
        Bool.and_eq_false_iff]
      by_cases hr : r.body.isGap = true
      · have := hg hr
        simp at this
        exact Or.inl this
      · simp at hr; exact Or.inr hr
    | cons b l =>
      simp only [noGapPair, Bool.and_eq_true] at h
      simp only [List.cons_append, noGapPair, Bool.and_eq_true]
      refine ⟨h.1, ih h.2 fun hr => ?_⟩
      have := hg hr
      simpa using this

theorem seqRise_dropLast (l : List LogRecord) (x y : LogRecord) (n : Word)
    (hs : x.seq = y.seq) (h : seqRise (l ++ [x]) n = true) : seqRise (l ++ [y]) n = true := by
  induction l with
  | nil => simpa [seqRise, hs] using h
  | cons a l ih =>
    cases l with
    | nil => simp only [List.cons_append, List.nil_append, seqRise, hs] at h ⊢; exact h
    | cons b l =>
      simp only [List.cons_append, seqRise, Bool.and_eq_true] at h ⊢
      exact ⟨h.1, ih h.2⟩

theorem noGapPair_replaceLast (l : List LogRecord) (x y : LogRecord)
    (hs : x.body.isGap = y.body.isGap) (h : noGapPair (l ++ [x]) = true) :
    noGapPair (l ++ [y]) = true := by
  induction l with
  | nil => rfl
  | cons a l ih =>
    cases l with
    | nil => simp only [List.cons_append, List.nil_append, noGapPair, hs] at h ⊢; exact h
    | cons b l =>
      simp only [List.cons_append, noGapPair, Bool.and_eq_true] at h ⊢
      exact ⟨h.1, ih h.2⟩

theorem seqRise_drop (n : Nat) (l : List LogRecord) (w : Word) (h : seqRise l w = true) :
    seqRise (l.drop n) w = true := by
  induction n generalizing l with
  | zero => simpa using h
  | succ n ih =>
    cases l with
    | nil => simp [seqRise]
    | cons a l =>
      simp only [List.drop_succ_cons]
      apply ih
      cases l with
      | nil => rfl
      | cons b l => simp only [seqRise, Bool.and_eq_true] at h; exact h.2

theorem noGapPair_drop (n : Nat) (l : List LogRecord) (h : noGapPair l = true) :
    noGapPair (l.drop n) = true := by
  induction n generalizing l with
  | zero => simpa using h
  | succ n ih =>
    cases l with
    | nil => rfl
    | cons a l =>
      simp only [List.drop_succ_cons]
      apply ih
      cases l with
      | nil => rfl
      | cons b l => simp only [noGapPair, Bool.and_eq_true] at h; exact h.2

/-- The law with which a log of at most 1023 records takes one more. -/
theorem EventLog.law_store {l : EventLog} (h : l.law) (t : TimeStamp) (b : RecordBody)
    (hb : (b.isGap = false ∧ l.recs.length < 1023) ∨
      (b.isGap = true ∧ l.recs.length = 1023 ∧ l.newestIsGap = false)) : (l.store t b).law := by
  obtain ⟨h1, h2, h3, h4, h5⟩ := h
  refine ⟨?_, ?_, ?_, ?_, ?_⟩
  · rcases hb with hb | hb <;> simp [EventLog.store] <;> omega
  · rcases hb with hb | hb
    · have := List.countP_le_length (p := fun r : LogRecord => !r.body.isGap) (l := l.recs)
      simp [EventLog.store, List.countP_append, hb.1]; omega
    · simp [EventLog.store, List.countP_append, hb.1]; simpa using h2
  · intro hl
    simp only [EventLog.store, EventLog.newestIsGap_append]
    rcases hb with hb | hb
    · simp [EventLog.store] at hl; omega
    · exact hb.1
  · apply noGapPair_append _ _ h4
    intro hg
    rcases hb with hb | hb
    · simp [hb.1] at hg
    · have := hb.2.2
      unfold EventLog.newestIsGap at this
      cases hx : l.recs.getLast? <;> simp_all
  · exact seqRise_append _ _ _ h5 fun _ => rfl

/-- A record other than a GAP handed to the log keeps its law. -/
theorem EventLog.law_put {l : EventLog} (h : l.law) (t : TimeStamp) (b : RecordBody)
    (hb : b.isGap = false) : (l.put t b).law := by
  unfold EventLog.put
  split
  · rename_i hlt; exact law_store h t b (Or.inl ⟨hb, hlt⟩)
  rename_i hlt
  simp only [Config.logOrdinary] at hlt
  split
  · rename_i hg
    unfold EventLog.countLoss
    split
    · rename_i x hx
      have hdl : l.recs.dropLast ++ [x] = l.recs := by
        have := List.dropLast_append_getLast? x hx
        simpa using this
      have hlen : l.recs.length = l.recs.dropLast.length + 1 := by rw [← hdl]; simp
      obtain ⟨h1, h2, h3, h4, h5⟩ := h
      have hxg : x.body.isGap = true := by simpa [EventLog.newestIsGap, hx] using hg
      refine ⟨?_, ?_, ?_, ?_, ?_⟩
      · simp only [List.length_append, List.length_singleton]; omega
      · rw [← hdl] at h2
        simp only [List.countP_append, List.countP_singleton, LogRecord.countLoss_isGap] at h2 ⊢
        exact h2
      · intro _
        rw [EventLog.newestIsGap_append, LogRecord.countLoss_isGap, hxg]
      · apply noGapPair_replaceLast _ x _ (LogRecord.countLoss_isGap t x).symm
        rw [hdl]; exact h4
      · apply seqRise_dropLast _ x _ _ (LogRecord.countLoss_seq t x).symm
        rw [hdl]; exact h5
    · exact h
  · rename_i hg
    have hn : l.newestIsGap = false := by simpa using hg
    apply law_store h
    refine Or.inr ⟨rfl, ?_, hn⟩
    have := h.1
    have h3 := h.2.2.1
    by_contra hc
    have : l.recs.length = 1024 := by omega
    rw [h3 this] at hn
    exact absurd hn (by simp)

theorem EventLog.law_release {l : EventLog} (h : l.law) (k : Nat) : (l.release k).law := by
  obtain ⟨h1, h2, h3, h4, h5⟩ := h
  unfold EventLog.release
  refine ⟨?_, ?_, ?_, noGapPair_drop _ _ h4, seqRise_drop _ _ _ h5⟩
  · simp only [List.length_drop]; omega
  · exact le_trans ((List.drop_sublist _ _).countP_le) h2
  · intro hl
    simp only [List.length_drop] at hl
    have h0 : l.releasable k = 0 := by omega
    rw [h0, List.drop_zero]
    apply h3; omega

theorem EventLog.law_empty : EventLog.law ⟨[], 0⟩ := by
  refine ⟨by simp, by simp, by simp, rfl, rfl⟩

/-! ### Handing a record to the log -/

/-- What handing a record to the log does: the log takes it, and where it fills the log point 261 makes its
transition (R147, R148). -/
theorem write_cases (s : State) (b : RecordBody) :
    (s.write b = s.put b ∧ ((s.put b).log.full = true → s.log.full = true)) ∨
    (s.log.full = false ∧ (s.put b).log.full = true ∧
      s.write b = ((s.put b).setSys 5 true).put (sysRecord false 5 true s.stamp)) := by
  unfold State.write
  dsimp only
  split
  · rename_i h
    simp only [Bool.and_eq_true, Bool.not_eq_true'] at h
    exact .inr ⟨h.2, h.1, rfl⟩
  · rename_i h
    refine .inl ⟨rfl, fun k => ?_⟩
    by_contra hc
    simp only [Bool.not_eq_true] at hc
    exact h (by rw [k, hc]; rfl)

/-- Where the log has room for two records, it only takes the record. -/
theorem write_room {s : State} (h : s.log.recs.length < 1023) (b : RecordBody) : s.write b = s.put b := by
  rcases write_cases s b with k | ⟨_, k, _⟩
  · exact k.1
  · have : (s.put b).log.full = false := by
      apply EventLog.not_full
      have := EventLog.put_length_le_succ s.stamp b s.log
      simp only [put_log]
      omega
    rw [this] at k
    exact absurd k (by simp)

/-- A record reaches no point but 261. -/
theorem write_pt_other (s : State) (b : RecordBody) {p : Fin 268} (hp : p ≠ sysPoint 5) :
    (s.write b).pt[p] = s.pt[p] := by
  rcases write_cases s b with h | ⟨_, _, h⟩
  · rw [h.1]; rfl
  · rw [h, put_pt, setSys_def, modPt_pt_other _ _ _ _ hp, put_pt]

/-- A record changes no active flag. -/
theorem write_active (s : State) (b : RecordBody) (p : Fin 268) :
    (s.write b).pt[p].active = s.pt[p].active := by
  rcases write_cases s b with h | ⟨_, _, h⟩
  · rw [h.1]; rfl
  · rw [h, put_pt, setSys_def]
    by_cases e : p = sysPoint 5
    · subst e; rw [modPt_pt_self]; rfl
    · rw [modPt_pt_other _ _ _ _ e, put_pt]

/-- Point 261 stands as the log: its state is the condition of R148. -/
theorem follows_log_iff (s : State) :
    s.follows 5 = true ↔ s.pt[sysPoint 5].qual.bit = s.log.full := by
  unfold State.follows
  exact beq_iff_eq

/-- A record leaves point 261 standing as the log (R148). -/
theorem write_follows {s : State} (hs : s.follows 5 = true) (b : RecordBody) :
    (s.write b).follows 5 = true := by
  rw [follows_log_iff] at hs ⊢
  rcases write_cases s b with h | ⟨_, k, h⟩
  · rw [h.1, put_pt, hs]
    by_cases e : s.log.full = true
    · rw [put_log, EventLog.put_full e, e]
    · have := mt h.2 e
      simp only [Bool.not_eq_true] at e this
      rw [e, this]
  · rw [h, put_pt, setSys_def, modPt_pt_self, put_log]
    exact (EventLog.put_full k _ _).symm

end Sys2Proof.Machine
end

