-- ==== Sys2Proof/Laws/Table.lean ====
section
/-! SUPPORT. What the loops over a table and over a list do: relations they keep, and what they do to
each item. -/
namespace Sys2Proof.Machine

/-- A relation that each pass of a loop keeps is kept by the loop. -/
theorem foldl_rel {α : Type} {R : State → State → Prop} (refl : ∀ s, R s s)
    (trans : ∀ s t u, R s t → R t u → R s u) {f : State → α → State} (h : ∀ s a, R s (f s a)) :
    ∀ (l : List α) (s : State), R s (l.foldl f s)
  | [], s => refl s
  | a :: l, s => trans _ _ _ (h s a) (foldl_rel refl trans h l (f s a))

/-- A relation that each pass keeps is kept by `each`. -/
theorem each_rel {n : Nat} {R : State → State → Prop} (refl : ∀ s, R s s)
    (trans : ∀ s t u, R s t → R t u → R s u) {f : Fin n → State → State} (h : ∀ i s, R s (f i s))
    (s : State) : R s (each n f s) :=
  foldl_rel refl trans (fun s i => h i s) _ s

/-- A property that each pass keeps is kept by a loop. -/
theorem foldl_inv {α : Type} {P : State → Prop} {f : State → α → State} (h : ∀ s a, P s → P (f s a)) :
    ∀ (l : List α) (s : State), P s → P (l.foldl f s)
  | [], _, hs => hs
  | a :: l, s, hs => foldl_inv h l (f s a) (h s a hs)

/-- A property that each pass keeps is kept by `each`. -/
theorem each_inv {n : Nat} {P : State → Prop} {f : Fin n → State → State}
    (h : ∀ i s, P s → P (f i s)) (s : State) (hs : P s) : P (each n f s) :=
  foldl_inv (fun s i => h i s) _ s hs

/-- A relation that each pass keeps is kept by a counting loop. -/
theorem countEach_rel {α : Type} {R : State → State → Prop} (refl : ∀ s, R s s)
    (trans : ∀ s t u, R s t → R t u → R s u) {f : α → State → State × Bool}
    (h : ∀ a s, R s (f a s).1) (l : List α) (s : State) : R s (countEach l f s).1 := by
  suffices H : ∀ (l : List α) (x : State × Nat), R x.1 (l.foldl (fun (acc : State × Nat) i =>
      let r := f i acc.1
      (r.1, if r.2 then acc.2 + 1 else acc.2)) x).1 from H l (s, 0)
  intro l
  induction l with
  | nil => exact fun x => refl _
  | cons a l ih =>
    intro x
    rw [List.foldl_cons]
    exact trans _ _ _ (h a x.1) (ih (_, _))

/-- A property that each pass keeps is kept by a counting loop. -/
theorem countEach_inv {α : Type} {P : State → Prop} {f : α → State → State × Bool}
    (h : ∀ a s, P s → P (f a s).1) (l : List α) (s : State) (hs : P s) : P (countEach l f s).1 :=
  countEach_rel (R := fun s t => P s → P t) (fun _ => id) (fun _ _ _ f g x => g (f x))
    (fun a s => h a s) l s hs

/-- A loop whose pass for `a` acts on what `view` shows of `a` alone: each item of the list is taken
once, under a property that every pass keeps. -/
theorem foldl_view {α β : Type} [DecidableEq α] {P : State → Prop} {view : State → α → β}
    {g : α → β → β} {f : State → α → State} (inv : ∀ s a, P s → P (f s a))
    (self : ∀ s a, P s → view (f s a) a = g a (view s a))
    (other : ∀ s a b, P s → b ≠ a → view (f s a) b = view s b) :
    ∀ (l : List α) (s : State), l.Nodup → P s → ∀ b,
      view (l.foldl f s) b = if b ∈ l then g b (view s b) else view s b
  | [], _, _, _, _ => by simp
  | a :: l, s, nd, hs, b => by
    have nd' := List.nodup_cons.mp nd
    rw [List.foldl_cons, foldl_view inv self other l (f s a) nd'.2 (inv s a hs) b]
    by_cases hb : b = a
    · subst hb
      simp [nd'.1, self s b hs]
    · simp [hb, other s a b hs hb]

/-- `each` over items of which each pass takes its own alone. -/
theorem each_view {β : Type} {n : Nat} {P : State → Prop} {view : State → Fin n → β}
    {g : Fin n → β → β} {f : Fin n → State → State} (inv : ∀ s a, P s → P (f a s))
    (self : ∀ s a, P s → view (f a s) a = g a (view s a))
    (other : ∀ s a b, P s → b ≠ a → view (f a s) b = view s b) (s : State) (hs : P s) (b : Fin n) :
    view (each n f s) b = g b (view s b) := by
  have := foldl_view (f := fun s a => f a s) inv self other (List.finRange n) s
    (List.nodup_finRange n) hs b
  simpa [each] using this

/-- A counting loop leaves what the loop of its passes leaves. -/
theorem countEach_fst {α : Type} (f : α → State → State × Bool) (l : List α) (s : State) :
    (countEach l f s).1 = l.foldl (fun s a => (f a s).1) s := by
  suffices H : ∀ x : State × Nat, (l.foldl (fun (acc : State × Nat) i =>
      let r := f i acc.1
      (r.1, if r.2 then acc.2 + 1 else acc.2)) x).1 = l.foldl (fun s a => (f a s).1) x.1 from H (s, 0)
  induction l with
  | nil => exact fun _ => rfl
  | cons a l ih => exact fun _ => ih _

/-- The count of a counting loop whose passes report what `q` says of the item at the start. -/
theorem countEach_count {α : Type} {P : State → Prop} {q : State → α → Bool}
    {f : α → State → State × Bool} (inv : ∀ s a, P s → P (f a s).1)
    (reports : ∀ s a, P s → (f a s).2 = q s a)
    (other : ∀ s a b, P s → b ≠ a → q (f a s).1 b = q s b) :
    ∀ (l : List α) (s : State), l.Nodup → P s → (countEach l f s).2 = l.countP (q s) := by
  suffices H : ∀ (l : List α) (x : State × Nat), l.Nodup → P x.1 →
      (l.foldl (fun (acc : State × Nat) i =>
        let r := f i acc.1
        (r.1, if r.2 then acc.2 + 1 else acc.2)) x).2 = x.2 + l.countP (q x.1) by
    intro l s nd hs
    have := H l (s, 0) nd hs
    simpa [countEach] using this
  intro l
  induction l with
  | nil => intro x _ _; simp
  | cons a l ih =>
    intro x nd hx
    have nd' := List.nodup_cons.mp nd
    rw [List.foldl_cons, ih _ nd'.2 (inv _ _ hx)]
    have hq : l.countP (q (f a x.1).1) = l.countP (q x.1) :=
      List.countP_congr fun b hb => by
        rw [other x.1 a b hx fun e => nd'.1 (e ▸ hb)]
    simp only [hq, reports x.1 a hx, List.countP_cons]
    split <;> omega

end Sys2Proof.Machine
end

