-- ==== Sys2Proof/Laws/Ripple.lean ====
section
/-! SUPPORT. What handing on a change can do, said once: the single moves it is made of, and for each
operation that hands on, that it is made of them. A property that every move keeps is kept by every
operation that hands on. -/
namespace Sys2Proof.Machine

/-- The records that handing on writes: neither a GAP record nor a record of the Force Table. -/
def RecordBody.handed : RecordBody → Bool
  | .gap .. | .forceOn .. | .forceOff .. => false
  | _ => true

theorem RecordBody.handed_isGap {b : RecordBody} (h : b.handed = true) : b.isGap = false := by
  cases b <;> first | rfl | simp [RecordBody.handed] at h

theorem RecordBody.handed_endsForce {b : RecordBody} (h : b.handed = true) (n : Word) (t : TimeStamp) :
    LogRecord.endsForce ⟨n, t, b⟩ = false := by
  cases b <;> first | rfl | simp [RecordBody.handed] at h

/-- One move of Trip Logic, the Output Stage, the news or the log. -/
inductive TripMove : State → State → Prop
  | write (s : State) (b : RecordBody) (h : b.handed = true) : TripMove s (s.write b)
  | news (s : State) (u : Fin 9) (k : NewsKind) : TripMove s (s.setNews u k)
  | eqn (s : State) (k : Fin 32) (f : EquationRun → EquationRun) (h : ∀ r, (f r).staged = r.staged) :
      TripMove s (s.modEqn k f)
  | install (s : State) (k : Fin 32) (rec : EquationRecord) (h : s.eqn[k].staged = some rec) :
      TripMove s ((s.setCfg { s.cfg with equations := s.cfg.equations.set k.val rec k.isLt }).modEqn k
        fun r => { r with staged := none, overwrite := false })
  | out (s : State) (o : Fin 16) (f : OutputRun → OutputRun)
      (h : ∀ r, (f r).manual = r.manual ∧ (f r).readback = r.readback ∧ (f r).fault = r.fault) :
      TripMove s (s.modOut o f)

/-- Moves of Trip Logic, the Output Stage, the news and the log, one after another. -/
abbrev TripRipple : State → State → Prop := Relation.ReflTransGen TripMove

/-- One move of handing on a change of an active flag. -/
inductive Move : State → State → Prop
  | trip {s t : State} (h : TripMove s t) : Move s t
  | active (s : State) (p : Fin 268) (v : Bool) : Move s (s.modPt p fun r => { r with active := v })
  | win (s : State) (w : Fin 192) (x : WindowState) : Move s (s.setWin w x)
  | calls (s : State) (p : Fin 4) (new : ClassSet) : Move s (setCalls p new s)
  | chime (s : State) (p : Fin 4) (h : s.pan[p].calls.highest = none) :
      Move s (s.modPan p fun r => { r with horn := .chime s.now })
  | grp (s : State) (g : Fin 16) (f : GroupRun → GroupRun) (h : s.grp[g].law → (f s.grp[g]).law) :
      Move s (s.modGrp g f)

/-- Moves of handing on, one after another. -/
abbrev Ripple : State → State → Prop := Relation.ReflTransGen Move

theorem TripRipple.ripple {s t : State} (h : TripRipple s t) : Ripple s t := by
  induction h with
  | refl => exact .refl
  | tail _ m ih => exact ih.tail (.trip m)

/-- A property that every move of Trip Logic keeps. -/
theorem TripRipple.inv {P : State → Prop} (move : ∀ s t, TripMove s t → P s → P t) {s t : State}
    (h : TripRipple s t) (hs : P s) : P t := by
  induction h with
  | refl => exact hs
  | tail _ m ih => exact move _ _ m ih

/-- A property that every move keeps. -/
theorem Ripple.inv {P : State → Prop} (move : ∀ s t, Move s t → P s → P t) {s t : State}
    (h : Ripple s t) (hs : P s) : P t := by
  induction h with
  | refl => exact hs
  | tail _ m ih => exact move _ _ m ih

/-! Going on from moves made, by one more move or by what an operation does. -/

theorem TripRipple.start (s : State) : TripRipple s s := .refl

theorem TripRipple.write {a s : State} (h : TripRipple a s) (b : RecordBody)
    (hb : b.handed = true := by rfl) : TripRipple a (s.write b) := h.tail (.write s b hb)

theorem TripRipple.news {a s : State} (h : TripRipple a s) (u : Fin 9) (k : NewsKind) :
    TripRipple a (s.setNews u k) := h.tail (.news s u k)

theorem TripRipple.eqn {a s : State} (h : TripRipple a s) (k : Fin 32) (f : EquationRun → EquationRun)
    (hf : ∀ r, (f r).staged = r.staged := by intro _; rfl) : TripRipple a (s.modEqn k f) :=
  h.tail (.eqn s k f hf)

theorem TripRipple.out {a s : State} (h : TripRipple a s) (o : Fin 16) (f : OutputRun → OutputRun)
    (hf : ∀ r, (f r).manual = r.manual ∧ (f r).readback = r.readback ∧ (f r).fault = r.fault := by
      exact fun _ => ⟨rfl, rfl, rfl⟩) : TripRipple a (s.modOut o f) := h.tail (.out s o f hf)

theorem TripRipple.op {a s t : State} (h : TripRipple a s) (k : TripRipple s t) : TripRipple a t :=
  Relation.ReflTransGen.trans h k

theorem TripRipple.each {n : Nat} {f : Fin n → State → State} (h : ∀ i s, TripRipple s (f i s))
    (s : State) : TripRipple s (each n f s) :=
  each_rel (fun _ => .refl) (fun _ _ _ => Relation.ReflTransGen.trans) h s

theorem TripRipple.ite {c : Prop} [Decidable c] {a s t : State} (h : TripRipple a s)
    (k : TripRipple a t) : TripRipple a (if c then s else t) := by split <;> assumption

theorem Ripple.start (s : State) : Ripple s s := .refl

theorem Ripple.op {a s t : State} (h : Ripple a s) (k : Ripple s t) : Ripple a t :=
  Relation.ReflTransGen.trans h k

theorem Ripple.win {a s : State} (h : Ripple a s) (w : Fin 192) (x : WindowState) :
    Ripple a (s.setWin w x) := h.tail (.win s w x)

theorem Ripple.calls {a s : State} (h : Ripple a s) (p : Fin 4) (new : ClassSet) :
    Ripple a (setCalls p new s) := h.tail (.calls s p new)

theorem Ripple.grp {a s : State} (h : Ripple a s) (g : Fin 16) (f : GroupRun → GroupRun)
    (hf : s.grp[g].law → (f s.grp[g]).law) : Ripple a (s.modGrp g f) := h.tail (.grp s g f hf)

theorem Ripple.each {n : Nat} {f : Fin n → State → State} (h : ∀ i s, Ripple s (f i s))
    (s : State) : Ripple s (each n f s) :=
  each_rel (fun _ => .refl) (fun _ _ _ => Relation.ReflTransGen.trans) h s

theorem Ripple.ite {c : Prop} [Decidable c] {a s t : State} (h : Ripple a s)
    (k : Ripple a t) : Ripple a (if c then s else t) := by split <;> assumption

/-! ### Outputs -/

theorem setCommanded_ripple (o : Fin 16) (v : Bool) (s : State) : TripRipple s (setCommanded o v s) := by
  unfold setCommanded
  split
  · exact .start s
  · exact (TripRipple.start s).out _ _

theorem startPulse_ripple (o : Fin 16) (s : State) : TripRipple s (startPulse o s) := by
  unfold startPulse
  exact ((TripRipple.start s).out _ _).op (setCommanded_ripple _ _ _)

theorem applyDemand_ripple (o : Fin 16) (before : Bool) (s : State) :
    TripRipple s (applyDemand o before s) := by
  unfold applyDemand
  dsimp only
  split
  · exact .start s
  split
  · exact setCommanded_ripple _ _ _
  · split
    · exact startPulse_ripple _ _
    · exact .start s

theorem changeDemand_ripple (o : Fin 16) (f : OutputRun → OutputRun)
    (s : State) (h : ∀ r, (f r).manual = r.manual ∧ (f r).readback = r.readback ∧
      (f r).fault = r.fault := by exact fun _ => ⟨rfl, rfl, rfl⟩) :
    TripRipple s (changeDemand o f s) := by
  unfold changeDemand
  exact ((TripRipple.start s).out o f h).op (applyDemand_ripple _ _ _)

theorem demandBy_ripple (k : Fin 32) (s : State) : TripRipple s (demandBy k s) := by
  unfold demandBy
  exact TripRipple.each (fun _ s => .ite (changeDemand_ripple _ _ s) (.start s)) s

theorem releaseBy_ripple (k : Fin 32) (s : State) : TripRipple s (releaseBy k s) := by
  unfold releaseBy
  exact TripRipple.each (fun _ s => .ite (changeDemand_ripple _ _ s) (.start s)) s

/-! ### Trip Logic -/

theorem formTerms_ripple (k : Fin 32) (s : State) : TripRipple s (formTerms k s) := by
  unfold formTerms
  exact (TripRipple.start s).eqn _ _

theorem seedEquation_ripple (k : Fin 32) (s : State) : TripRipple s (seedEquation k s) := by
  unfold seedEquation
  exact (formTerms_ripple k s).eqn _ _

theorem installStaged_ripple (k : Fin 32) (s : State) : TripRipple s (installStaged k s) := by
  unfold installStaged
  split
  · exact .start s
  · rename_i rec h
    exact (Relation.ReflTransGen.single (TripMove.install s k rec h)).trans (seedEquation_ripple _ _)

theorem cancelTiming_ripple (k : Fin 32) (dest : EquationState) (reason : TripEndReason) (s : State) :
    TripRipple s (cancelTiming k dest reason s) := by
  unfold cancelTiming
  exact (((TripRipple.start s).eqn _ _).write _).op (installStaged_ripple _ _)

theorem enterTripped_ripple {hand : Fin 32 → State → State} (h : ∀ k s, TripRipple s (hand k s))
    (k : Fin 32) (s : State) : TripRipple s (enterTripped hand k s) := by
  unfold enterTripped
  exact (((((TripRipple.start s).eqn _ _).write _).news _ _).op (demandBy_ripple _ _)).op (h _ _)

theorem release_ripple {hand : Fin 32 → State → State} (h : ∀ k s, TripRipple s (hand k s))
    (k : Fin 32) (reason : TripEndReason) (s : State) : TripRipple s (release hand k reason s) := by
  unfold release
  exact (((((TripRipple.start s).write _).eqn _ _).op (releaseBy_ripple _ _)).op (h _ _)).op
    (installStaged_ripple _ _)

theorem startTiming_ripple {hand : Fin 32 → State → State} (h : ∀ k s, TripRipple s (hand k s))
    (k : Fin 32) (s : State) : TripRipple s (startTiming hand k s) := by
  unfold startTiming
  exact .ite (enterTripped_ripple h k s) ((TripRipple.start s).eqn _ _)

theorem actOnCondition_ripple {hand : Fin 32 → State → State} (h : ∀ k s, TripRipple s (hand k s))
    (k : Fin 32) (s : State) : TripRipple s (actOnCondition hand k s) := by
  unfold actOnCondition
  split
  · exact startTiming_ripple h k s
  · exact cancelTiming_ripple _ _ _ _
  · split
    · exact release_ripple h _ _ _
    · exact .start s
  · exact .start s

theorem takeTermChange_ripple {hand : Fin 32 → State → State} (h : ∀ k s, TripRipple s (hand k s))
    (src : TermSource) (t : TimeStamp) (k : Fin 32) (s : State) :
    TripRipple s (takeTermChange hand src t k s) := by
  unfold takeTermChange
  extract_lets e r a b c cause s'
  exact .ite (.start s) (.ite (((TripRipple.start s).eqn k _).op (actOnCondition_ripple h _ _))
    ((TripRipple.start s).eqn k _))

theorem handEquation_ripple : ∀ (n : Nat) (k : Fin 32) (s : State), TripRipple s (handEquation n k s)
  | 0, _, s => .start s
  | n + 1, _, s =>
    TripRipple.each
      (fun _ s => .ite (takeTermChange_ripple (handEquation_ripple n) _ _ _ s) (.start s)) s

theorem handTrip_ripple (k : Fin 32) (s : State) : TripRipple s (handTrip k s) :=
  handEquation_ripple 32 k s

theorem blockEquation_ripple (k : Fin 32) (s : State) : TripRipple s (blockEquation k s) := by
  unfold blockEquation
  split
  · exact (TripRipple.start s).eqn _ _
  · exact cancelTiming_ripple _ _ _ _
  · exact .start s

theorem unblockEquation_ripple (k : Fin 32) (s : State) : TripRipple s (unblockEquation k s) := by
  unfold unblockEquation
  split
  · exact .ite (((TripRipple.start s).eqn _ _).op (startTiming_ripple handTrip_ripple _ _))
      ((TripRipple.start s).eqn _ _)
  · exact .start s

theorem armEquation_ripple (k : Fin 32) (s : State) : TripRipple s (armEquation k s).1 := by
  unfold armEquation
  split
  · split
    · exact .start s
    · dsimp only
      exact (TripRipple.start s).eqn _ _
  all_goals exact .start s

theorem returnEquation_ripple (k : Fin 32) (s : State) : TripRipple s (returnEquation k s) := by
  unfold returnEquation
  extract_lets was s1 s2 s3
  have h1 : TripRipple s s1 := .ite ((TripRipple.start s).write _) (.start s)
  have h2 : TripRipple s s2 := h1.eqn _ _
  have h3 : TripRipple s s3 := .ite (h2.op (releaseBy_ripple _ _)) h2
  exact h3.op (installStaged_ripple _ _)

/-! ### Windows -/

theorem eachPanelOf_ripple {w : Fin 192} {f : Fin 4 → State → State} (h : ∀ p s, Ripple s (f p s))
    (s : State) : Ripple s (eachPanelOf w f s) :=
  Ripple.each (fun p s => .ite (h p s) (.start s)) s

theorem call_ripple (w : Fin 192) (u : Fin 9) (s : State) : Ripple s (call w u s) := by
  unfold call
  exact (eachPanelOf_ripple (fun p s => (Ripple.start s).calls p _) s).tail (.trip (.news _ _ _))

theorem pruneCalls_ripple (p : Fin 4) (s : State) : Ripple s (pruneCalls p s) :=
  (Ripple.start s).calls p _

theorem exitAlert_ripple (w : Fin 192) (s : State) : Ripple s (exitAlert w s) :=
  eachPanelOf_ripple pruneCalls_ripple s

theorem takeChime_ripple (p : Fin 4) (s : State) : Ripple s (takeChime p s) := by
  unfold takeChime
  split
  · exact .start s
  · rename_i h
    exact .single (.chime s p h)

theorem chimeRequest_ripple (w : Fin 192) (s : State) : Ripple s (chimeRequest w s) := by
  unfold chimeRequest
  exact .ite (eachPanelOf_ripple takeChime_ripple s) (.start s)

theorem arrival_ripple (w : Fin 192) (u : Fin 9) (s : State) : Ripple s (arrival w u s) := by
  unfold arrival
  split
  · exact (Ripple.start s).win _ _
  all_goals exact ((Ripple.start s).win _ _).op (call_ripple _ _ _)

theorem conditionFalse_ripple (w : Fin 192) (s : State) : Ripple s (conditionFalse w s) := by
  unfold conditionFalse
  split
  · exact ((Ripple.start s).win _ _).op (chimeRequest_ripple _ _)
  · exact ((Ripple.start s).win _ _).op (exitAlert_ripple _ _)
  all_goals first | exact (Ripple.start s).win _ _ | exact .start s

theorem departure_ripple (w : Fin 192) (s : State) : Ripple s (departure w s) := by
  unfold departure
  exact .ite (.start s) (conditionFalse_ripple _ _)

theorem listChange_ripple (w : Fin 192) (s : State) : Ripple s (listChange w s) := by
  unfold listChange
  split
  · exact departure_ripple _ _
  · exact .start s

theorem ackWindow_ripple (w : Fin 192) (s : State) : Ripple s (ackWindow w s).1 := by
  have h : ∀ x, Ripple s (exitAlert w (s.setWin w x)) := fun x =>
    ((Ripple.start s).win w x).op (exitAlert_ripple _ _)
  unfold ackWindow
  split
  · split
    · exact .start s
    · split
      · dsimp only
        exact h _
      · dsimp only
        exact (h _).op (chimeRequest_ripple _ _)
    all_goals
      dsimp only
      exact h _
  all_goals exact .start s

theorem resetWindow_ripple (w : Fin 192) (s : State) : Ripple s (resetWindow w s).1 := by
  unfold resetWindow
  split
  · exact (Ripple.start s).win _ _
  · exact .start s

theorem ackWindows_ripple (ws : List (Fin 192)) (s : State) : Ripple s (ackWindows ws s).1 :=
  countEach_rel (fun _ => .refl) (fun _ _ _ => Relation.ReflTransGen.trans) ackWindow_ripple ws s

theorem resetWindows_ripple (ws : List (Fin 192)) (s : State) : Ripple s (resetWindows ws s).1 :=
  countEach_rel (fun _ => .refl) (fun _ _ _ => Relation.ReflTransGen.trans) resetWindow_ripple ws s

theorem convertWindow_ripple (w : Fin 192) (old : SeqType) (s : State) :
    Ripple s (convertWindow w old s) := by
  unfold convertWindow
  split
  · exact .ite (((Ripple.start s).win _ _).op (exitAlert_ripple _ _)) ((Ripple.start s).win _ _)
  · exact .ite ((Ripple.start s).win _ _) (.start s)
  · exact .ite ((Ripple.start s).win _ _) (.start s)
  · exact .start s

theorem changeClass_ripple (w : Fin 192) (old : WindowClass) (s : State) :
    Ripple s (changeClass w old s) := by
  unfold changeClass
  split
  · exact eachPanelOf_ripple (fun p s => (Ripple.start s).calls p _) s
  all_goals exact .start s

/-! ### Groups -/

theorem later_law {r : GroupRun} (h : r.law) (n : Nat) : (r.later n).law := by
  obtain ⟨h1, h2, h3, h4, _⟩ := h
  exact ⟨h1, h2, h3, h4, Nat.min_le_left _ _⟩

theorem firstEvent_law {r : GroupRun} (h : r.law) (p : Fin 268) (e : TimeStamp) (resolve now : Nat) :
    (r.firstEvent p e resolve now).law := by
  obtain ⟨_, _, _, _, h5⟩ := h
  unfold GroupRun.firstEvent
  by_cases hr : resolve = 0
  · simp [hr, GroupRun.law, h5]
  · simp [hr, GroupRun.law, h5]

theorem settleEvent_law {r : GroupRun} (h : r.law) (hs : r.state = .settling) (p : Fin 268)
    (e t : TimeStamp) : (r.settleEvent p e t).law := by
  have hne : r.firstOut ≠ [] := fun e' => by
    have := h.2.1.mp e'
    rw [hs] at this
    exact absurd this (by decide)
  have hst : ∀ n, (r.later n).state = .settling := fun _ => hs
  unfold GroupRun.settleEvent
  split
  · split
    · exact later_law h _
    split
    · rename_i hl
      obtain ⟨h1, h2, h3, h4, h5⟩ := h
      simp only [Config.firstOutCapacity] at hl
      refine ⟨?_, ?_, ?_, h4, h5⟩
      · simp; omega
      · simp [hs]
      · simp [h3.mpr hne]
    · exact later_law h _
  split
  · obtain ⟨h1, h2, h3, h4, h5⟩ := later_law h (r.displaced p)
    refine ⟨by simp, ?_, by simp, h4, h5⟩
    simp [hst]
  · exact later_law h _

theorem rearmed_law (r : GroupRun) : r.rearmed.law := by
  simp [GroupRun.rearmed, GroupRun.law]

theorem captured_law {r : GroupRun} (h : r.law) (hs : r.state = .settling) :
    GroupRun.law { r with state := .captured, timer := none } := by
  obtain ⟨h1, h2, h3, h4, h5⟩ := h
  refine ⟨h1, ?_, h3, by simp, h5⟩
  simp [h2, hs]

theorem putFirstOut_ripple (g : Fin 16) (s : State) : TripRipple s (putFirstOut g s) := by
  unfold putFirstOut
  exact (TripRipple.start s).write _

theorem captureEvent_ripple (g : Fin 16) (p : Fin 268) (e : TimeStamp) (s : State) :
    Ripple s (captureEvent g p e s) := by
  unfold captureEvent
  split
  · extract_lets resolve s'
    have h : Ripple s s' := (Ripple.start s).grp _ _ fun h => firstEvent_law h _ _ _ _
    exact .ite (h.op (putFirstOut_ripple _ _).ripple) h
  · rename_i hs
    exact (Ripple.start s).grp _ _ fun h => settleEvent_law h hs _ _ _
  · exact (Ripple.start s).grp _ _ fun h => later_law h _

theorem rearmGroup_ripple (g : Fin 16) (s : State) : Ripple s (rearmGroup g s) :=
  (Ripple.start s).grp _ _ fun _ => rearmed_law _

theorem rearmHome_ripple (panel : Fin 4) (s : State) : Ripple s (rearmHome panel s).1 :=
  countEach_rel (fun _ => .refl) (fun _ _ _ => Relation.ReflTransGen.trans) (fun g s => by
    unfold rearmAtHome
    split
    · exact rearmGroup_ripple g s
    · exact .start s) _ s

/-! ### Active flags -/

theorem deliverActive_ripple (p : Fin 268) (cause : Cause) (t : TimeStamp) (w : Option (Fin 192))
    (g : Option (Fin 16)) (s : State) : Ripple s (deliverActive p cause t w g s) := by
  unfold deliverActive
  extract_lets v s'
  have hw : Ripple s s' := by
    unfold s'
    split
    · exact .start s
    · exact .ite (arrival_ripple _ _ _) (departure_ripple _ _)
  split
  · exact hw
  · exact .ite (hw.op (captureEvent_ripple _ _ _ _)) hw

theorem changeActive_ripple (p : Fin 268) (cause : Cause) (t : TimeStamp) (w : Option (Fin 192))
    (g : Option (Fin 16)) (s : State) : Ripple s (changeActive p cause t w g s) := by
  unfold changeActive
  exact .ite (.start s) ((Relation.ReflTransGen.single (Move.active s p _)).trans
    (deliverActive_ripple _ _ _ _ _ _))

/-! ### Point 261 -/

theorem handLogOnce_ripple (cause : Cause) (s : State) : Ripple s (handLogOnce cause s) :=
  (changeActive_ripple _ _ _ _ _ s).op
    (TripRipple.each (fun k s => takeTermChange_ripple handTrip_ripple _ _ k s) _).ripple

theorem handLog_ripple (cause : Cause) (s : State) : Ripple s (handLog cause s) := by
  unfold handLog
  exact .ite (handLogOnce_ripple _ _) ((handLogOnce_ripple _ _).op (handLogOnce_ripple _ _))

/-- An effect made of moves stays so with the handing on of a full log. -/
theorem loggedAs_ripple {f : State → State} {s : State} (cause : Cause) (h : Ripple s (f s)) :
    Ripple s (loggedAs cause f s) := by
  unfold loggedAs
  exact .ite h (h.op (handLog_ripple _ _))

theorem logged_ripple {f : State → State} {s : State} (h : Ripple s (f s)) : Ripple s (logged f s) :=
  loggedAs_ripple _ h

/-- An effect that leaves point 261 is handed on no further. -/
theorem logged_eq {f : State → State} {s : State}
    (h : (f s).pt[sysPoint 5].qual = s.pt[sysPoint 5].qual) : logged f s = f s := if_pos h

theorem record_ripple (s : State) (b : RecordBody) (hb : b.handed = true := by rfl) :
    Ripple s (s.record b) := logged_ripple (f := fun s => s.write b) (.single (.trip (.write s b hb)))

theorem writeOperator_ripple (s : State) (a : OperatorAction) (src : Option (Fin 4)) (n : Nat) :
    TripRipple s (s.writeOperator a src n) := by
  unfold State.writeOperator
  exact .ite (.start s) ((TripRipple.start s).write _)

theorem recordOperator_ripple (s : State) (a : OperatorAction) (src : Option (Fin 4)) (n : Nat) :
    Ripple s (s.recordOperator a src n) :=
  logged_ripple (f := fun s => s.writeOperator a src n) (writeOperator_ripple s a src n).ripple

/-- Evaluating an active flag again and handing it on. -/
theorem evalActiveTo_ripple (p : Fin 268) (cause : Cause) (t : TimeStamp) (w : Option (Fin 192))
    (g : Option (Fin 16)) (s : State) : Ripple s (evalActiveTo p cause t w g s) :=
  logged_ripple (changeActive_ripple _ _ _ _ _ s)

theorem evalActive_ripple (p : Fin 268) (cause : Cause) (t : TimeStamp) (s : State) :
    Ripple s (evalActive p cause t s) := evalActiveTo_ripple _ _ _ _ _ _

theorem evalUnit_ripple (u : Fin 9) (cause : Cause) (s : State) : Ripple s (evalUnit u cause s) := by
  unfold evalUnit
  exact Ripple.each (fun _ s => .ite (evalActive_ripple _ _ _ s) (.start s)) s

/-- Handing a term change to the equations. -/
theorem handTerm_ripple (src : TermSource) (t : TimeStamp) (s : State) : Ripple s (handTerm src t s) :=
  Ripple.each (fun k s => logged_ripple (takeTermChange_ripple handTrip_ripple src t k s).ripple) s

/-- A change of a unit's blocked state taken by Trip Logic. -/
theorem tripUnit_ripple (b : Bool) (u : Fin 9) (s : State) : Ripple s (tripUnit b u s) := by
  have h (k : Fin 32) (s : State) :
      Ripple s (logged (if b then blockEquation k else unblockEquation k) s) := by
    apply logged_ripple
    split
    · exact (blockEquation_ripple k s).ripple
    · exact (unblockEquation_ripple k s).ripple
  unfold tripUnit
  exact .ite (Ripple.each (fun k s => .ite (h k s) (.start s)) s) (.start s)

theorem resetEquation_ripple (k : Fin 32) (s : State) : Ripple s (resetEquation k s).1 := by
  unfold resetEquation
  split
  · split
    · split
      · exact .start s
      · exact logged_ripple (release_ripple handTrip_ripple _ _ _).ripple
    · exact .start s
  all_goals exact .start s

theorem recordMode_ripple (u : Fin 9) (old new : Mode) (s : State) :
    TripRipple s (recordMode u old new s) := by
  unfold recordMode
  exact ((TripRipple.start s).write _).news _ _

/-! ### What the moves keep -/

/-- The log after more records, none a GAP record, are handed to it at one time stamp. -/
def logGrows (t : TimeStamp) (l l' : EventLog) : Prop :=
  ∃ bs : List RecordBody, (∀ b ∈ bs, b.isGap = false) ∧ l' = bs.foldl (fun l b => l.put t b) l

theorem logGrows.refl (t : TimeStamp) (l : EventLog) : logGrows t l l := ⟨[], by simp, rfl⟩

theorem logGrows.put {t : TimeStamp} {l l' : EventLog} (h : logGrows t l l') {b : RecordBody}
    (hb : b.isGap = false) : logGrows t l (l'.put t b) := by
  obtain ⟨bs, h1, h2⟩ := h
  refine ⟨bs ++ [b], ?_, ?_⟩
  · intro x hx
    rcases List.mem_append.mp hx with hx | hx
    · exact h1 x hx
    · simp at hx; subst hx; exact hb
  · rw [List.foldl_append, ← h2]; rfl

theorem logGrows.law {t : TimeStamp} {l l' : EventLog} (h : logGrows t l l') (hl : l.law) : l'.law := by
  obtain ⟨bs, h1, rfl⟩ := h
  induction bs generalizing l with
  | nil => exact hl
  | cons b bs ih => exact ih (EventLog.law_put hl t b (h1 b (by simp))) fun x hx => h1 x (by simp [hx])

/-- A held record that is no GAP record stays where it is while the log grows. -/
theorem logGrows.keeps {t : TimeStamp} {l l' : EventLog} (h : logGrows t l l') {i : Nat} {r : LogRecord}
    (hr : l.recs[i]? = some r) (hg : r.body.isGap = false) : l'.recs[i]? = some r := by
  obtain ⟨bs, h1, rfl⟩ := h
  clear h1
  induction bs generalizing l with
  | nil => exact hr
  | cons b bs ih => exact ih (EventLog.put_keeps hr hg t b)

theorem logGrows.full {t : TimeStamp} {l l' : EventLog} (h : logGrows t l l') (hl : l.full = true) :
    l'.full = true := by
  obtain ⟨bs, h1, rfl⟩ := h
  clear h1
  induction bs generalizing l with
  | nil => exact hl
  | cons b bs ih => exact ih (EventLog.put_full hl t b)

/-- What no move of handing on changes: the clock, the units, the store, the link and every configured
record but the active equation records; of a point below `m`, other than point 261, all but its active
flag, and of every point its score and debounce; of a panel all but its call set and horn; of an output its
manual demand, readback and fault. The log only grows. With `m` 268 no point but 261 changes otherwise;
with `m` 256 a system point may. -/
structure Kept (m : Nat) (s t : State) : Prop where
  now : t.now = s.now
  draws : t.draws = s.draws
  service : t.service = s.service
  settle : t.settle = s.settle
  forces : t.forces = s.forces
  decay : t.decay = s.decay
  un : t.un = s.un
  frameClock : t.frameClock = s.frameClock
  clock : t.clock = s.clock
  link : t.link = s.link
  store : t.store = s.store
  pending : t.pending = s.pending
  cfg : { t.cfg with equations := s.cfg.equations } = s.cfg
  pt : ∀ p : Fin 268, p.val < m → p ≠ sysPoint 5 → { t.pt[p] with active := s.pt[p].active } = s.pt[p]
  ptCore : ∀ p : Fin 268, t.pt[p].chattering = s.pt[p].chattering ∧ t.pt[p].score = s.pt[p].score ∧
    t.pt[p].suppressed = s.pt[p].suppressed ∧ t.pt[p].debounce = s.pt[p].debounce
  pan : ∀ p : Fin 4, { t.pan[p] with calls := s.pan[p].calls, horn := s.pan[p].horn } = s.pan[p]
  out : ∀ o : Fin 16, t.out[o].manual = s.out[o].manual ∧ t.out[o].readback = s.out[o].readback ∧
    t.out[o].fault = s.out[o].fault
  log : logGrows s.stamp s.log t.log

theorem Kept.refl (m : Nat) (s : State) : Kept m s s :=
  ⟨rfl, rfl, rfl, rfl, rfl, rfl, rfl, rfl, rfl, rfl, rfl, rfl, rfl, fun _ _ _ => rfl,
   fun _ => ⟨rfl, rfl, rfl, rfl⟩, fun _ => rfl, fun _ => ⟨rfl, rfl, rfl⟩, logGrows.refl _ _⟩

theorem Kept.mono {m n : Nat} {s t : State} (h : Kept m s t) (hn : n ≤ m) : Kept n s t :=
  { h with pt := fun p hp => h.pt p (by omega) }

theorem Kept.stamp {m : Nat} {s t : State} (h : Kept m s t) : t.stamp = s.stamp := by
  simp [State.stamp, h.clock]

/-- Two stretches of handing on leave together what each leaves. -/
theorem Kept.trans {m : Nat} {s t u : State} (h : Kept m s t) (k : Kept m t u) : Kept m s u where
  now := k.now.trans h.now
  draws := k.draws.trans h.draws
  service := k.service.trans h.service
  settle := k.settle.trans h.settle
  forces := k.forces.trans h.forces
  decay := k.decay.trans h.decay
  un := k.un.trans h.un
  frameClock := k.frameClock.trans h.frameClock
  clock := k.clock.trans h.clock
  link := k.link.trans h.link
  store := k.store.trans h.store
  pending := k.pending.trans h.pending
  cfg := by rw [← h.cfg, ← k.cfg]
  pt p hp h5 := by rw [← h.pt p hp h5, ← k.pt p hp h5]
  ptCore p := ⟨(k.ptCore p).1.trans (h.ptCore p).1, (k.ptCore p).2.1.trans (h.ptCore p).2.1,
    (k.ptCore p).2.2.1.trans (h.ptCore p).2.2.1, (k.ptCore p).2.2.2.trans (h.ptCore p).2.2.2⟩
  pan p := by rw [← h.pan p, ← k.pan p]
  out o := ⟨(k.out o).1.trans (h.out o).1, (k.out o).2.1.trans (h.out o).2.1,
    (k.out o).2.2.trans (h.out o).2.2⟩
  log := by
    obtain ⟨bs, h1, h2⟩ := h.log
    obtain ⟨cs, k1, k2⟩ := k.log
    refine ⟨bs ++ cs, ?_, ?_⟩
    · intro b hb
      rcases List.mem_append.mp hb with hb | hb
      · exact h1 b hb
      · exact k1 b hb
    · rw [k2, h.stamp, h2, List.foldl_append]

/-- A system point's transition leaves every field point, and of every point what the chatter filter
holds. -/
theorem kept_setSys (k : Fin 12) (c : Bool) (s : State) : Kept 256 s (s.setSys k c) := by
  have h := Kept.refl 256 s
  rw [setSys_def]
  refine { h with pt := fun q hq _ => ?_, ptCore := fun q => ?_ }
  · have e : q ≠ sysPoint k := by intro e; rw [e] at hq; simp [sysPoint] at hq
    rw [modPt_pt_other _ _ _ _ e]
  · by_cases e : sysPoint k = q
    · subst e; rw [modPt_pt_self]; exact ⟨rfl, rfl, rfl, rfl⟩
    · rw [modPt_pt_other _ _ _ _ (Ne.symm e)]; exact ⟨rfl, rfl, rfl, rfl⟩

theorem kept_put (m : Nat) (s : State) (b : RecordBody) (hb : b.isGap = false) : Kept m s (s.put b) :=
  { Kept.refl m s with log := (logGrows.refl _ _).put hb }

/-- What handing a record to the log leaves: of the points all but point 261. -/
theorem kept_write (s : State) (b : RecordBody) (hb : b.isGap = false) : Kept 268 s (s.write b) := by
  rcases write_cases s b with h | ⟨_, _, h⟩
  · rw [h.1]; exact kept_put 268 s b hb
  · rw [h]
    have k : Kept 256 s (((s.put b).setSys 5 true).put (sysRecord false 5 true s.stamp)) :=
      ((kept_put 256 s b hb).trans (kept_setSys 5 true _)).trans (kept_put 256 _ _ rfl)
    refine { k with pt := fun q _ h5 => ?_ }
    rw [put_pt, setSys_def, modPt_pt_other _ _ _ _ h5]
    rfl

theorem kept_tripMove {s t : State} (m : TripMove s t) : Kept 268 s t := by
  have h := Kept.refl 268 s
  cases m with
  | write b hb => exact kept_write s b (RecordBody.handed_isGap hb)
  | news u k => exact { h with }
  | eqn k f hf => exact { h with }
  | install k rec hk => exact { h with cfg := h.cfg }
  | out o f hf =>
    refine { h with out := fun q => ?_ }
    by_cases e : o = q
    · subst e
      rw [modOut_out_self]
      exact hf s.out[o]
    · rw [modOut_out_other _ _ _ _ (Ne.symm e)]
      exact h.out q

theorem kept_move {s t : State} (m : Move s t) : Kept 268 s t := by
  have h := Kept.refl 268 s
  cases m with
  | trip m => exact kept_tripMove m
  | active p v =>
    refine { h with pt := fun q hq _ => ?_, ptCore := fun q => ?_ }
    · by_cases e : p = q
      · subst e; rw [modPt_pt_self]
      · rw [modPt_pt_other _ _ _ _ (Ne.symm e)]
    · by_cases e : p = q
      · subst e; rw [modPt_pt_self]; exact h.ptCore p
      · rw [modPt_pt_other _ _ _ _ (Ne.symm e)]; exact h.ptCore q
  | win w x => exact { h with }
  | calls p new =>
    refine { h with pan := fun q => ?_ }
    unfold setCalls
    by_cases e : p = q
    · subst e; rw [modPan_pan_self]
    · rw [modPan_pan_other _ _ _ _ (Ne.symm e)]
  | chime p hc =>
    refine { h with pan := fun q => ?_ }
    by_cases e : p = q
    · subst e; rw [modPan_pan_self]
    · rw [modPan_pan_other _ _ _ _ (Ne.symm e)]
  | grp g f hf => exact { h with }

/-- What handing on leaves. -/
theorem Ripple.kept {s t : State} (h : Ripple s t) : Kept 268 s t := by
  induction h with
  | refl => exact .refl _ _
  | tail _ m ih => exact ih.trans (kept_move m)

/-- A record that is no FORCE_OFF record leaves those that the log holds. -/
theorem EventLog.put_endsForce (t : TimeStamp) {b : RecordBody} (hb : b.handed = true) (l : EventLog) :
    (l.put t b).recs.filter LogRecord.endsForce = l.recs.filter LogRecord.endsForce := by
  unfold EventLog.put
  split
  · simp [EventLog.store, List.filter_append, RecordBody.handed_endsForce hb]
  split
  · unfold EventLog.countLoss
    split
    · rename_i x hx
      have hl := List.dropLast_append_getLast? x hx
      have he : [x.countLoss t].filter LogRecord.endsForce = [x].filter LogRecord.endsForce := by
        unfold LogRecord.countLoss
        split
        · rename_i h; simp [LogRecord.endsForce, h]
        · rfl
      conv_rhs => rw [← hl]
      rw [List.filter_append, List.filter_append, he]
    · rfl
  · simp [EventLog.store, List.filter_append, LogRecord.endsForce]

theorem write_endsForce (s : State) {b : RecordBody} (hb : b.handed = true) :
    (s.write b).log.recs.filter LogRecord.endsForce = s.log.recs.filter LogRecord.endsForce := by
  have h := EventLog.put_endsForce s.stamp hb s.log
  unfold State.write
  extract_lets t
  split
  · exact (EventLog.put_endsForce _ rfl _).trans h
  · exact h

/-- Handing on writes no FORCE_OFF record. -/
theorem Ripple.endsForce {s t : State} (h : Ripple s t) :
    t.log.recs.filter LogRecord.endsForce = s.log.recs.filter LogRecord.endsForce := by
  refine Ripple.inv (P := fun t => t.log.recs.filter LogRecord.endsForce =
    s.log.recs.filter LogRecord.endsForce) (fun a b m k => ?_) h rfl
  cases m with
  | trip m =>
    cases m with
    | write x hx => exact (write_endsForce a hx).trans k
    | _ => exact k
  | _ => exact k

/-- What Trip Logic leaves besides: the points but point 261, every active flag, the windows, the groups,
the panels. -/
theorem TripRipple.kept {s t : State} (h : TripRipple s t) :
    (∀ p : Fin 268, p ≠ sysPoint 5 → t.pt[p] = s.pt[p]) ∧
    (∀ p : Fin 268, t.pt[p].active = s.pt[p].active) ∧ t.win = s.win ∧ t.grp = s.grp ∧ t.pan = s.pan := by
  refine TripRipple.inv (P := fun t => (∀ p : Fin 268, p ≠ sysPoint 5 → t.pt[p] = s.pt[p]) ∧
    (∀ p : Fin 268, t.pt[p].active = s.pt[p].active) ∧ t.win = s.win ∧ t.grp = s.grp ∧ t.pan = s.pan)
    (fun a b m k => ?_) h ⟨fun _ _ => rfl, fun _ => rfl, rfl, rfl, rfl⟩
  cases m
  case write b hb =>
    refine ⟨fun p hp => ?_, fun p => ?_, by simpa using k.2.2⟩
    · rw [write_pt_other a b hp, k.1 p hp]
    · rw [write_active, k.2.1 p]
  all_goals exact k

/-! ### The fields of what is kept, one by one -/

section
variable {m : Nat} {s t : State} (h : Kept m s t)
include h

theorem Kept.points : t.cfg.points = s.cfg.points := by rw [← h.cfg]
theorem Kept.units : t.cfg.units = s.cfg.units := by rw [← h.cfg]
theorem Kept.windows : t.cfg.windows = s.cfg.windows := by rw [← h.cfg]
theorem Kept.panels : t.cfg.panels = s.cfg.panels := by rw [← h.cfg]
theorem Kept.groups : t.cfg.groups = s.cfg.groups := by rw [← h.cfg]
theorem Kept.outputs : t.cfg.outputs = s.cfg.outputs := by rw [← h.cfg]
theorem Kept.settings : t.cfg.settings = s.cfg.settings := by rw [← h.cfg]
theorem Kept.contributors (w : Fin 192) : t.cfg.contributors w = s.cfg.contributors w := by
  simp [Tables.contributors, h.points]

theorem Kept.score (p : Fin 268) : t.pt[p].score = s.pt[p].score := (h.ptCore p).2.1
theorem Kept.chattering (p : Fin 268) : t.pt[p].chattering = s.pt[p].chattering := (h.ptCore p).1
theorem Kept.suppressed (p : Fin 268) : t.pt[p].suppressed = s.pt[p].suppressed := (h.ptCore p).2.2.1
theorem Kept.debounce (p : Fin 268) : t.pt[p].debounce = s.pt[p].debounce := (h.ptCore p).2.2.2
theorem Kept.qual (p : Fin 268) (hp : p.val < m) (h5 : p ≠ sysPoint 5) :
    t.pt[p].qual = s.pt[p].qual := by rw [← h.pt p hp h5]
theorem Kept.raw (p : Fin 268) (hp : p.val < m) (h5 : p ≠ sysPoint 5) : t.pt[p].raw = s.pt[p].raw := by
  rw [← h.pt p hp h5]
theorem Kept.lastEdge (p : Fin 268) (hp : p.val < m) (h5 : p ≠ sysPoint 5) :
    t.pt[p].lastEdge = s.pt[p].lastEdge := by rw [← h.pt p hp h5]

theorem Kept.panLink (p : Fin 4) : t.pan[p].link = s.pan[p].link := by rw [← h.pan p]

theorem Kept.operating : t.operating = s.operating := by
  simp [State.operating, h.service, h.settle]

theorem Kept.forcedValue (p : Fin 268) : t.forcedValue p = s.forcedValue p := by
  simp [State.forcedValue, h.forces]

theorem Kept.forced (p : Fin 268) : t.forced p = s.forced p := by
  simp [State.forced, h.forcedValue]

theorem Kept.effective (p : Fin 268) (hp : p.val < m) (h5 : p ≠ sysPoint 5) :
    t.effective p = s.effective p := by
  unfold State.effective
  rw [h.forcedValue, h.qual p hp h5]

theorem Kept.level (p : Fin 268) (hp : p.val < m) (h5 : p ≠ sysPoint 5) : t.level p = s.level p := by
  unfold State.level
  rw [h.points, h.raw p hp h5]

/-- Every owner's condition but that of the log stands while changes are handed on. -/
theorem Kept.sysCond (k : Fin 12) (hk : k ≠ 5) : t.sysCond k = s.sysCond k := by
  have hp := fun p => h.panLink p
  have ho : ∀ o : Fin 16, t.out[o].fault = s.out[o].fault := fun o => (h.out o).2.2
  fin_cases k <;>
    first
    | exact absurd rfl hk
    | simp only [State.sysCond, h.clock, h.settings, h.forces, h.store, h.link, h.un, hp, ho]

end

/-! ### System points -/

theorem sysPoint_ne {j k : Fin 12} (h : j ≠ k) : sysPoint j ≠ sysPoint k := by
  intro e
  exact h (Fin.ext (by have := congrArg Fin.val e; simp [sysPoint] at this; omega))

/-- While changes are handed on every point but that of the log stands as before. -/
theorem Ripple.follows_other {s t : State} (h : Ripple s t) {k : Fin 12} (hk : k ≠ 5) :
    t.follows k = s.follows k := by
  unfold State.follows
  rw [h.kept.sysCond k hk, h.kept.qual _ (sysPoint k).isLt (sysPoint_ne hk)]

/-- No move of handing on but a record reaches point 261's state or the log. -/
theorem move_log {s t : State} (m : Move s t) :
    (∃ b, t = s.write b) ∨ (t.log = s.log ∧ t.pt[sysPoint 5].qual = s.pt[sysPoint 5].qual) := by
  cases m with
  | trip m =>
    cases m with
    | write b hb => exact .inl ⟨b, rfl⟩
    | news u k => exact .inr ⟨rfl, rfl⟩
    | eqn k f hf => exact .inr ⟨rfl, rfl⟩
    | install k rec hk => exact .inr ⟨rfl, rfl⟩
    | out o f hf => exact .inr ⟨rfl, rfl⟩
  | active p v =>
    refine .inr ⟨rfl, ?_⟩
    by_cases e : p = sysPoint 5
    · subst e; rw [modPt_pt_self]
    · rw [modPt_pt_other _ _ _ _ (Ne.symm e)]
  | win w x => exact .inr ⟨rfl, rfl⟩
  | calls p new => exact .inr ⟨rfl, rfl⟩
  | chime p hc => exact .inr ⟨rfl, rfl⟩
  | grp g f hf => exact .inr ⟨rfl, rfl⟩

/-- While changes are handed on point 261 goes on standing as the log (R148). -/
theorem Ripple.follows_log {s t : State} (h : Ripple s t) (hs : s.follows 5 = true) :
    t.follows 5 = true := by
  refine Ripple.inv (P := fun t => t.follows 5 = true) (fun a b m k => ?_) h hs
  rcases move_log m with ⟨x, rfl⟩ | ⟨hl, hq⟩
  · exact write_follows k x
  · rw [follows_log_iff] at k ⊢
    rw [hl, hq]; exact k

/-- What the transition of a system point leaves. -/
theorem sysTransition_ripple (startup : Bool) (k : Fin 12) (c : Bool) (s : State) :
    ∃ b, b.isGap = false ∧
      (if k = 5 then Ripple ((s.setSys k c).put b) (sysTransition startup k c s)
       else Ripple (s.setSys k c) (sysTransition startup k c s)) := by
  refine ⟨sysRecord startup k c s.stamp, rfl, ?_⟩
  unfold sysTransition
  extract_lets cause t b p s1
  split
  · exact handLog_ripple _ _
  · have h : Ripple (s.setSys k c) s1 :=
      loggedAs_ripple (f := fun s => s.write b) cause (.single (.trip (.write _ b rfl)))
    exact (h.op (handTerm_ripple _ _ _)).op (evalActive_ripple _ _ _ _)

/-- A system point that follows its owner stays as it is or makes a transition. -/
theorem sysFollow_cases (startup : Bool) (k : Fin 12) (s : State) :
    (sysFollow startup k s = s ∧ s.follows k = true) ∨
    (s.follows k = false ∧ sysFollow startup k s = sysTransition startup k (s.sysCond k) s) := by
  by_cases h : s.pt[sysPoint k].qual.bit = s.sysCond k
  · left
    exact ⟨if_pos h, by simpa [State.follows] using h⟩
  · right
    exact ⟨by simpa [State.follows] using h, if_neg h⟩

theorem sysFollow_agrees {startup : Bool} {k : Fin 12} {s : State} (h : s.follows k = true) :
    sysFollow startup k s = s := by
  rcases sysFollow_cases startup k s with h' | h'
  · exact h'.1
  · rw [h'.1] at h; exact absurd h (by simp)

/-- What the following of a system point leaves. -/
theorem sysFollow_kept (startup : Bool) (k : Fin 12) (s : State) : Kept 256 s (sysFollow startup k s) := by
  rcases sysFollow_cases startup k s with h | h
  · rw [h.1]; exact .refl _ _
  · rw [h.2]
    obtain ⟨b, hb, h⟩ := sysTransition_ripple startup k (s.sysCond k) s
    split at h
    · exact ((kept_setSys k _ s).trans (kept_put 256 _ b hb)).trans (h.kept.mono (by omega))
    · exact (kept_setSys k _ s).trans (h.kept.mono (by omega))

theorem setSys_qual_other {j k : Fin 12} (h : j ≠ k) (c : Bool) (s : State) :
    (s.setSys k c).pt[sysPoint j].qual = s.pt[sysPoint j].qual := by
  rw [setSys_def, modPt_pt_other _ _ _ _ (sysPoint_ne h)]

theorem setSys_qual_self (k : Fin 12) (c : Bool) (s : State) :
    (s.setSys k c).pt[sysPoint k].qual.bit = c := by
  rw [setSys_def, modPt_pt_self]
  cases c <;> rfl

/-- The transition of one system point leaves the qualified state of the others, but for point 261. -/
theorem sysFollow_qual_other (startup : Bool) {j k : Fin 12} (hj : j ≠ 5) (h : j ≠ k) (s : State) :
    (sysFollow startup k s).pt[sysPoint j].qual = s.pt[sysPoint j].qual := by
  rcases sysFollow_cases startup k s with h' | h'
  · rw [h'.1]
  · rw [h'.2]
    obtain ⟨b, _, r⟩ := sysTransition_ripple startup k (s.sysCond k) s
    split at r
    all_goals
      rw [r.kept.qual _ (sysPoint j).isLt (sysPoint_ne hj)]
      exact setSys_qual_other h _ s

/-- A transition brings a point other than that of the log to the condition that made it. -/
theorem sysFollow_qual_self (startup : Bool) {k : Fin 12} (hk : k ≠ 5) (s : State) :
    (sysFollow startup k s).pt[sysPoint k].qual.bit = s.sysCond k := by
  rcases sysFollow_cases startup k s with h' | h'
  · rw [h'.1]; simpa [State.follows] using h'.2
  · rw [h'.2]
    obtain ⟨b, _, r⟩ := sysTransition_ripple startup k (s.sysCond k) s
    rw [if_neg hk] at r
    rw [r.kept.qual _ (sysPoint k).isLt (sysPoint_ne hk)]
    exact setSys_qual_self k _ s

/-- A point other than that of the log stands as its owner's condition once it has followed it. -/
theorem sysFollow_follows (startup : Bool) {k : Fin 12} (hk : k ≠ 5) (s : State) :
    (sysFollow startup k s).follows k = true := by
  unfold State.follows
  rw [sysFollow_qual_self startup hk, (sysFollow_kept startup k s).sysCond k hk]
  simp

/-- The following of one point leaves another, but that of the log, as it stands. -/
theorem sysFollow_follows_other (startup : Bool) {j k : Fin 12} (hj : j ≠ 5) (h : j ≠ k) (s : State) :
    (sysFollow startup k s).follows j = s.follows j := by
  unfold State.follows
  rw [sysFollow_qual_other startup hj h, (sysFollow_kept startup k s).sysCond j hj]

/-- The following of another point leaves point 261 standing as the log (R148). -/
theorem sysFollow_follows_log (startup : Bool) {k : Fin 12} (hk : k ≠ 5) {s : State}
    (hs : s.follows 5 = true) : (sysFollow startup k s).follows 5 = true := by
  rcases sysFollow_cases startup k s with h | h
  · rw [h.1]; exact hs
  · rw [h.2]
    obtain ⟨b, _, r⟩ := sysTransition_ripple startup k (s.sysCond k) s
    rw [if_neg hk] at r
    apply r.follows_log
    rw [follows_log_iff] at hs ⊢
    rw [setSys_qual_other (Ne.symm hk)]
    exact hs

/-- Where every point but one stands, all stand once it has followed its owner (R13). -/
theorem sysFollow_systemLaw (startup : Bool) {k : Fin 12} (hk : k ≠ 5) {s : State}
    (hs : ∀ j : Fin 12, j ≠ k → s.follows j = true) : (sysFollow startup k s).systemLaw := by
  intro j
  by_cases hj : j = 5
  · subst hj; exact sysFollow_follows_log startup hk (hs 5 (Ne.symm hk))
  by_cases e : j = k
  · subst e; exact sysFollow_follows startup hk s
  · rw [sysFollow_follows_other startup hj e]; exact hs j e

/-- While changes are handed on every system point goes on standing as its owner's condition (R13). -/
theorem Ripple.systemLaw {s t : State} (h : Ripple s t) (hs : s.systemLaw) : t.systemLaw := by
  intro k
  by_cases hk : k = 5
  · subst hk; exact h.follows_log (hs 5)
  · rw [h.follows_other hk]; exact hs k

end Sys2Proof.Machine
end

