-- ==== Sys2Proof/Laws/Requests.lean ====
section
/-! SUPPORT. How a request goes, said once: each request command is its owner serving it, a request that
is heard is judged in the heard state, and what is answered to each verdict. -/
namespace Sys2Proof.Machine

/-- Each request command is its owner serving the request. -/
theorem exec_request {c : Instr} {h : Handler} {r : Request} (hc : c.request = some (h, r)) (s : State) :
    exec c s = .next (serve h r s) := by
  cases c
  case setTime b x =>
    cases b <;> simp only [Instr.request, Option.some.injEq, Prod.mk.injEq, reduceCtorEq] at hc
    obtain ⟨rfl, rfl⟩ := hc
    rfl
  all_goals
    simp only [Instr.request, Option.some.injEq, Prod.mk.injEq, reduceCtorEq] at hc
  all_goals
    obtain ⟨rfl, rfl⟩ := hc
    rfl

/-! ### The heard state -/

@[simp] theorem heard_station (s : State) : s.heard.link.station = s.link.station := rfl
@[simp] theorem heard_receiver (s : State) : s.heard.link.receiver = s.link.receiver := rfl
@[simp] theorem heard_now (s : State) : s.heard.now = s.now := rfl
@[simp] theorem heard_draws (s : State) : s.heard.draws = s.draws := rfl
@[simp] theorem heard_service (s : State) : s.heard.service = s.service := rfl
@[simp] theorem heard_settle (s : State) : s.heard.settle = s.settle := rfl
@[simp] theorem heard_cfg (s : State) : s.heard.cfg = s.cfg := rfl
@[simp] theorem heard_pt (s : State) : s.heard.pt = s.pt := rfl
@[simp] theorem heard_forces (s : State) : s.heard.forces = s.forces := rfl
@[simp] theorem heard_decay (s : State) : s.heard.decay = s.decay := rfl
@[simp] theorem heard_un (s : State) : s.heard.un = s.un := rfl
@[simp] theorem heard_win (s : State) : s.heard.win = s.win := rfl
@[simp] theorem heard_grp (s : State) : s.heard.grp = s.grp := rfl
@[simp] theorem heard_frameClock (s : State) : s.heard.frameClock = s.frameClock := rfl
@[simp] theorem heard_pan (s : State) : s.heard.pan = s.pan := rfl
@[simp] theorem heard_eqn (s : State) : s.heard.eqn = s.eqn := rfl
@[simp] theorem heard_out (s : State) : s.heard.out = s.out := rfl
@[simp] theorem heard_clock (s : State) : s.heard.clock = s.clock := rfl
@[simp] theorem heard_log (s : State) : s.heard.log = s.log := rfl
@[simp] theorem heard_news (s : State) : s.heard.news = s.news := rfl
@[simp] theorem heard_store (s : State) : s.heard.store = s.store := rfl
@[simp] theorem heard_pending (s : State) : s.heard.pending = s.pending := rfl
@[simp] theorem heard_stamp (s : State) : s.heard.stamp = s.stamp := rfl
@[simp] theorem heard_operating (s : State) : s.heard.operating = s.operating := rfl

/-- What only the link differs in, every owner but that of the silence judges alike. -/
theorem setLink_sysCond (s : State) (x : LinkRun) {k : Fin 12} (hk : k ≠ 9) :
    (s.setLink x).sysCond k = s.sysCond k := by
  revert hk
  match k with
  | 0 | 1 | 2 | 3 | 4 | 5 | 6 | 7 | 8 | 10 | 11 => intro _; rfl
  | 9 => intro h; exact absurd rfl h

theorem setLink_follows (s : State) (x : LinkRun) {k : Fin 12} (hk : k ≠ 9) :
    (s.setLink x).follows k = s.follows k := by
  unfold State.follows
  rw [setLink_sysCond s x hk]
  rfl

/-- The system points stand in the heard state where no silence stood. -/
theorem heard_systemLaw {s : State} (hs : s.systemLaw) (hl : s.link.silent = false) :
    s.heard.systemLaw := by
  intro k
  by_cases hk : k = 9
  · subst hk
    have h9 := hs 9
    have e : s.sysCond 9 = false := hl
    unfold State.follows at h9 ⊢
    rw [e] at h9
    exact h9
  · exact (setLink_follows s _ hk).trans (hs k)

/-- A valid frame leads to the heard state where no silence stood (R162). -/
theorem validFrame_heard {s : State} (hs : s.systemLaw) (hl : s.link.silent = false) :
    validFrame s = s.heard :=
  sysFollow_agrees (heard_systemLaw hs hl 9)

/-- After a valid frame every system point stands (R13, R162). -/
theorem validFrame_systemLaw {s : State} (hs : s.systemLaw) : (validFrame s).systemLaw :=
  sysFollow_systemLaw false (by decide) fun _ hj => (setLink_follows s _ hj).trans (hs _)

/-! ### Taking a request -/

/-- A request that is heard is judged in the heard state and its verdict answered. -/
theorem serve_hears {s : State} (hh : s.hears) (hs : s.systemLaw) (h : Handler) (r : Request) :
    serve h r s = answer h.kind r.sel s.heard (h.judge r s.heard) := by
  unfold serve Handler.take
  rw [hh.1, hh.2.1, validFrame_heard hs hh.2.2]
  rfl

/-- A request that is heard and refused has its code sent from the heard state. -/
theorem serve_refuse {s : State} (hh : s.hears) (hs : s.systemLaw) {h : Handler} {r : Request}
    {c : ResultCode} (hj : h.judge r s.heard = .refuse c) :
    serve h r s = sendReply h.kind r.sel c [] s.heard := by
  rw [serve_hears hh hs, hj]
  rfl

/-- A request that is heard and accepted without a change of state has its data sent. -/
theorem serve_read {s : State} (hh : s.hears) (hs : s.systemLaw) {h : Handler} {r : Request}
    {data : State → List Byte} (hj : h.judge r s.heard = accept s.heard data) :
    serve h r s = sendReply h.kind r.sel .ok (data s.heard) s.heard := by
  rw [serve_hears hh hs, hj]
  rfl

/-- A request that passes the checks of length, selection, state and busy is its owner's. -/
theorem judge_act {h : Handler} {r : Request} {s : State} (hl : h.lenOk r.body.length = true)
    (hsel : r.sel.toNat < 512) (hg : h.gate s = true) (hb : (h.put && s.saving) = false) :
    h.judge r s = h.act r s := by
  unfold Handler.judge selectionOk
  simp [hl, hsel, hg, hb]

/-- The checks before the owner's, each failing first (R156). -/
theorem judge_length {h : Handler} {r : Request} {s : State} (hl : h.lenOk r.body.length = false) :
    h.judge r s = .refuse .length := by
  unfold Handler.judge
  simp [hl]

theorem judge_select {h : Handler} {r : Request} {s : State} (hl : h.lenOk r.body.length = true)
    (hsel : 512 ≤ r.sel.toNat) : h.judge r s = .refuse .select := by
  unfold Handler.judge selectionOk
  simp [hl, hsel]

theorem judge_state {h : Handler} {r : Request} {s : State} (hl : h.lenOk r.body.length = true)
    (hsel : r.sel.toNat < 512) (hg : h.gate s = false) : h.judge r s = .refuse .state := by
  unfold Handler.judge selectionOk
  simp [hl, hsel, hg]

theorem judge_busy {h : Handler} {r : Request} {s : State} (hl : h.lenOk r.body.length = true)
    (hsel : r.sel.toNat < 512) (hg : h.gate s = true) (hp : h.put = true)
    (hj : s.store.job.isSome = true) : h.judge r s = .refuse .busy := by
  unfold Handler.judge selectionOk State.saving
  simp [hl, hsel, hg, hp, hj]

/-- No owner's gate reads the link. -/
theorem gate_heard {c : Instr} {h : Handler} {r : Request} (hc : c.request = some (h, r)) (s : State) :
    h.gate s.heard = h.gate s := by
  cases c
  case setTime b x =>
    cases b <;> simp only [Instr.request, Option.some.injEq, Prod.mk.injEq, reduceCtorEq] at hc
    obtain ⟨rfl, rfl⟩ := hc
    rfl
  all_goals
    simp only [Instr.request, Option.some.injEq, Prod.mk.injEq, reduceCtorEq] at hc
  all_goals
    obtain ⟨rfl, rfl⟩ := hc
    rfl

/-- After a release point 261 stands as the log once it has followed it (R148, R149). -/
theorem release_follows {s : State} (hs : s.follows 5 = true) (k : Nat) :
    (sysFollow false 5 { s with log := s.log.release k }).follows 5 = true := by
  rcases sysFollow_cases false 5 { s with log := s.log.release k } with h | ⟨hf, h⟩
  · rw [h.1]; exact h.2
  · rw [h]
    obtain ⟨b, _, r⟩ := sysTransition_ripple false 5
      (State.sysCond { s with log := s.log.release k } 5) { s with log := s.log.release k }
    rw [if_pos rfl] at r
    apply r.follows_log
    rw [follows_log_iff, put_pt, setSys_qual_self]
    exact (EventLog.release_put_full (by
      intro e
      have e' : State.sysCond { s with log := s.log.release k } 5 = false := e
      rw [follows_log_iff] at hs
      unfold State.follows at hf
      rw [e'] at hf
      have hq : s.pt[sysPoint 5].qual.bit = true := by simpa using hf
      rw [← hs, hq]) _ _).symm

/-! ### Numbers of a body -/

theorem toFin_val {n x : Nat} {i : Fin n} (h : x = i.val) : toFin n x = some i := by
  subst h
  simp [toFin]

theorem toFin_none {n x : Nat} (h : n ≤ x) : toFin n x = none := by
  simp [toFin, Nat.not_lt.mpr h]

theorem panelOf_val {x : Nat} {p : Fin 4} (h : x = p.val + 1) : panelOf x = some p := by
  subst h
  simp [panelOf, toFin]

theorem panelOf_none {x : Nat} (h : x = 0 ∨ 5 ≤ x) : panelOf x = none := by
  rcases h with rfl | h
  · rfl
  · unfold panelOf
    rw [if_neg (by omega), toFin_none (by omega)]

theorem itemsOf_some {n most first count : Nat} (h : 1 ≤ count ∧ count ≤ most ∧ first + count ≤ n) :
    itemsOf n most first count =
      some ((List.finRange n).filter fun i => first ≤ i.val && i.val < first + count) := by
  unfold itemsOf
  rw [if_pos (by simpa [and_assoc] using h)]

theorem itemsOf_none {n most first count : Nat}
    (h : ¬ (1 ≤ count ∧ count ≤ most ∧ first + count ≤ n)) : itemsOf n most first count = none := by
  unfold itemsOf
  rw [if_neg (by simpa [and_assoc] using h)]

theorem windowRange_some {first last : Nat} (h : first ≤ last) (h' : last ≤ 191) :
    windowRange first last =
      some ((List.finRange 192).filter fun w => first ≤ w.val && w.val ≤ last) := by
  unfold windowRange
  rw [if_pos (by simp [h, h'])]

theorem windowRange_none {first last : Nat} (h : ¬ (first ≤ last ∧ last ≤ 191)) :
    windowRange first last = none := by
  unfold windowRange
  rw [if_neg (by simpa using h)]

theorem panelSet_some {x : Nat} (h : x ≤ 15) : panelSet x = some (panelsOf x) := by
  unfold panelSet
  rw [if_pos (by omega)]

theorem panelSet_none {x : Nat} (h : 15 < x) : panelSet x = none := by
  unfold panelSet
  rw [if_neg (by omega)]

/-! ### The reply -/

@[simp] theorem sendReply_receiver (kind : Nat) (sel : Word) (c : ResultCode) (data : List Byte)
    (s : State) : (sendReply kind sel c data s).link.receiver =
      .replying (frameOf s.link.station.toNat (kind + 128) (echoed sel) (byteOf c.code :: data)) := rfl

/-- A selection without further flags is sent as it came. -/
theorem echoed_of_lt {sel : Word} (h : sel.toNat < 512) : echoed sel = sel := by
  apply BitVec.eq_of_toNat_eq
  rw [echoed, BitVec.toNat_and, show (0x01FF#16).toNat = 2 ^ 9 - 1 from rfl, Nat.and_two_pow_sub_one_eq_mod]
  exact Nat.mod_eq_of_lt h

/-- A reply sent is the reply that the receiver holds. -/
theorem sendReply_repliesWith (kind : Nat) {sel : Word} (h : sel.toNat < 512) (c : ResultCode)
    (data : List Byte) (s : State) : (sendReply kind sel c data s).repliesWith kind sel c data := by
  unfold State.repliesWith
  rw [sendReply_receiver, echoed_of_lt h]
  rfl

/-- Sending a reply changes nothing but the receiver. -/
theorem sendReply_eq (kind : Nat) (sel : Word) (c : ResultCode) (data : List Byte) (s : State) :
    { sendReply kind sel c data s with
      link := { (sendReply kind sel c data s).link with receiver := s.link.receiver } } = s := rfl

end Sys2Proof.Machine
end

