-- ==== Sys2Proof/Laws/Windows.lean ====
section
/-! SUPPORT. What the Window Sequencer's operations do to the windows, and what else they change: the
call sets and horns, and a call the news. -/
namespace Sys2Proof.Machine

/-- The two states differ in the panels alone. -/
def OnlyPanels (s t : State) : Prop := { t with pan := s.pan } = s

/-- The two states differ in the windows, the panels and the news alone. -/
def OnlyWindows (s t : State) : Prop := { t with win := s.win, pan := s.pan, news := s.news } = s

theorem OnlyPanels.refl (s : State) : OnlyPanels s s := rfl

theorem OnlyPanels.trans {s t u : State} (h : OnlyPanels s t) (k : OnlyPanels t u) : OnlyPanels s u := by
  unfold OnlyPanels at *
  rw [← k] at h
  exact h

theorem OnlyPanels.win {s t : State} (h : OnlyPanels s t) : t.win = s.win := by rw [← h]
theorem OnlyPanels.pt {s t : State} (h : OnlyPanels s t) : t.pt = s.pt := by rw [← h]
theorem OnlyPanels.cfg {s t : State} (h : OnlyPanels s t) : t.cfg = s.cfg := by rw [← h]
theorem OnlyPanels.now {s t : State} (h : OnlyPanels s t) : t.now = s.now := by rw [← h]
theorem OnlyPanels.news {s t : State} (h : OnlyPanels s t) : t.news = s.news := by rw [← h]

theorem OnlyPanels.windows {s t : State} (h : OnlyPanels s t) : OnlyWindows s t := by
  unfold OnlyWindows
  rw [← h]

theorem OnlyWindows.refl (s : State) : OnlyWindows s s := rfl

theorem OnlyWindows.trans {s t u : State} (h : OnlyWindows s t) (k : OnlyWindows t u) :
    OnlyWindows s u := by
  unfold OnlyWindows at *
  rw [← k] at h
  exact h

theorem OnlyWindows.pt {s t : State} (h : OnlyWindows s t) : t.pt = s.pt := by rw [← h]
theorem OnlyWindows.cfg {s t : State} (h : OnlyWindows s t) : t.cfg = s.cfg := by rw [← h]
theorem OnlyWindows.log {s t : State} (h : OnlyWindows s t) : t.log = s.log := by rw [← h]
theorem OnlyWindows.clock {s t : State} (h : OnlyWindows s t) : t.clock = s.clock := by rw [← h]
theorem OnlyWindows.grp {s t : State} (h : OnlyWindows s t) : t.grp = s.grp := by rw [← h]
theorem OnlyWindows.eqn {s t : State} (h : OnlyWindows s t) : t.eqn = s.eqn := by rw [← h]
theorem OnlyWindows.out {s t : State} (h : OnlyWindows s t) : t.out = s.out := by rw [← h]
theorem OnlyWindows.link {s t : State} (h : OnlyWindows s t) : t.link = s.link := by rw [← h]

/-- A window's condition reads the points and the configured records alone. -/
theorem condition_congr {s t : State} (hp : t.pt = s.pt) (hc : t.cfg = s.cfg) (w : Fin 192) :
    t.condition w = s.condition w := by
  unfold State.condition
  rw [hp, hc]

/-! ### Panels -/

theorem setCalls_panels (p : Fin 4) (new : ClassSet) (s : State) : OnlyPanels s (setCalls p new s) := rfl

theorem takeChime_panels (p : Fin 4) (s : State) : OnlyPanels s (takeChime p s) := by
  unfold takeChime
  split <;> rfl

theorem eachPanelOf_panels {w : Fin 192} {f : Fin 4 → State → State} (h : ∀ p s, OnlyPanels s (f p s))
    (s : State) : OnlyPanels s (eachPanelOf w f s) :=
  each_rel .refl (fun _ _ _ => .trans) (fun p s => by
    show OnlyPanels s (if s.shows p w then f p s else s)
    split
    · exact h p s
    · exact .refl s) s

/-- An exit from ALERT changes call sets and horns alone. -/
theorem exitAlert_panels (w : Fin 192) (s : State) : OnlyPanels s (exitAlert w s) :=
  eachPanelOf_panels (fun p s => setCalls_panels p _ s) s

/-- A chime request changes horns alone. -/
theorem chimeRequest_panels (w : Fin 192) (s : State) : OnlyPanels s (chimeRequest w s) := by
  unfold chimeRequest
  split
  · exact eachPanelOf_panels takeChime_panels s
  · exact OnlyPanels.refl s

theorem setNews_windows (u : Fin 9) (k : NewsKind) (s : State) : OnlyWindows s (s.setNews u k) := rfl

theorem setWin_windows (w : Fin 192) (x : WindowState) (s : State) : OnlyWindows s (s.setWin w x) := rfl

/-- A call changes call sets, horns and news alone. -/
theorem call_windows (w : Fin 192) (u : Fin 9) (s : State) :
    OnlyWindows s (call w u s) ∧ (call w u s).win = s.win := by
  have h := eachPanelOf_panels (w := w)
    (fun p s => setCalls_panels p (s.pan[p].calls.add s.cfg.windows[w].cls) s) s
  unfold call
  exact ⟨h.windows.trans (setNews_windows _ _ _), (setNews_win _ _ _).trans h.win⟩

/-! ### The windows under each operation -/

/-- An arrival leaves its window HELD for SEQ-S and in ALERT for the other types. -/
theorem arrival_win (w : Fin 192) (u : Fin 9) (s : State) :
    (arrival w u s).win =
      (s.setWin w (if s.cfg.windows[w].seq = .seqS then .held else .alert)).win := by
  unfold arrival
  split <;> rename_i h <;> simp only [h, reduceCtorEq, if_true, if_false, (call_windows _ _ _).2]

theorem arrival_windows (w : Fin 192) (u : Fin 9) (s : State) : OnlyWindows s (arrival w u s) := by
  unfold arrival
  split
  · exact setWin_windows _ _ _
  all_goals exact (setWin_windows _ _ _).trans (call_windows _ _ _).1

/-- The state that the event "condition false" leaves. -/
def conditionFalseState (seq : SeqType) (x : WindowState) : WindowState :=
  match seq, x with
  | .seqF, .held => .returned
  | .seqN, .alert | .seqA, .held | .seqN, .held | .seqS, .held => .quiet
  | _, x => x

theorem setWin_same (s : State) (w : Fin 192) {x : WindowState} (h : s.win[w] = x) :
    (s.setWin w x).win = s.win := by
  subst h
  show s.win.set w.val s.win[w] w.isLt = s.win
  simp

theorem conditionFalse_win (w : Fin 192) (s : State) :
    (conditionFalse w s).win =
      (s.setWin w (conditionFalseState s.cfg.windows[w].seq s.win[w])).win := by
  unfold conditionFalse
  split <;> rename_i h1 h2
  · rw [(chimeRequest_panels _ _).win, h1, h2]; rfl
  · rw [(exitAlert_panels _ _).win, h1, h2]; rfl
  · rw [h1, h2]; rfl
  · rw [h1, h2]; rfl
  · rw [h1, h2]; rfl
  · rw [setWin_same]
    unfold conditionFalseState
    split <;> simp_all

theorem conditionFalse_windows (w : Fin 192) (s : State) : OnlyWindows s (conditionFalse w s) := by
  unfold conditionFalse
  split
  · exact (setWin_windows _ _ _).trans (chimeRequest_panels _ _).windows
  · exact (setWin_windows _ _ _).trans (exitAlert_panels _ _).windows
  all_goals rfl

/-- A departure leaves the windows where the condition stands, else takes "condition false". -/
theorem departure_win (w : Fin 192) (s : State) :
    (departure w s).win =
      if s.condition w then s.win
      else (s.setWin w (conditionFalseState s.cfg.windows[w].seq s.win[w])).win := by
  unfold departure
  split
  · rfl
  · exact conditionFalse_win w s

theorem departure_windows (w : Fin 192) (s : State) : OnlyWindows s (departure w s) := by
  unfold departure
  split
  · rfl
  · exact conditionFalse_windows w s

/-- ACK leaves the window in the state of the table, and reports whether it was in ALERT and is not of
type SEQ-S. -/
theorem ackWindow_win (w : Fin 192) (s : State) :
    (ackWindow w s).1.win =
      (s.setWin w (ackedState s.cfg.windows[w].seq s.win[w] (s.condition w))).win := by
  unfold ackWindow
  split <;> rename_i h
  · rw [h]
    split <;> rename_i h'
    · rw [h', setWin_same]
      exact h
    · rw [h']
      split <;> rename_i hc
      · rw [(exitAlert_panels _ _).win, hc]; rfl
      · rw [(chimeRequest_panels _ _).win, (exitAlert_panels _ _).win]
        simp [ackedState, hc]
    · rw [(exitAlert_panels _ _).win, h']; rfl
    · rw [(exitAlert_panels _ _).win, h']; rfl
  all_goals
    rw [setWin_same]
    rw [h]
    cases s.cfg.windows[w].seq <;> rfl

theorem ackWindow_reports (w : Fin 192) (s : State) :
    (ackWindow w s).2 = (s.win[w] == .alert && s.cfg.windows[w].seq != .seqS) := by
  unfold ackWindow
  generalize s.win[w] = x
  generalize s.cfg.windows[w].seq = q
  cases x
  case alert =>
    cases q
    case seqF => dsimp only; split <;> rfl
    all_goals rfl
  all_goals rfl

theorem exitAlert_setWin (w : Fin 192) (x : WindowState) (s : State) :
    OnlyWindows s (exitAlert w (s.setWin w x)) :=
  OnlyWindows.trans (setWin_windows w x s) (exitAlert_panels w (s.setWin w x)).windows

theorem ackWindow_windows (w : Fin 192) (s : State) : OnlyWindows s (ackWindow w s).1 := by
  unfold ackWindow
  split
  · split
    · exact OnlyWindows.refl s
    · split <;> dsimp only
      · exact exitAlert_setWin w .held s
      · exact OnlyWindows.trans (exitAlert_setWin w .returned s)
          (chimeRequest_panels w (exitAlert w (s.setWin w .returned))).windows
    · dsimp only; exact exitAlert_setWin w _ s
    · dsimp only; exact exitAlert_setWin w _ s
  all_goals exact OnlyWindows.refl s

/-- RESET leaves the window in the state of the table, and reports whether it was in RETURN. -/
theorem resetWindow_win (w : Fin 192) (s : State) :
    (resetWindow w s).1.win = (s.setWin w (resetState s.cfg.windows[w].seq s.win[w])).win := by
  unfold resetWindow
  split <;> rename_i h
  · rename_i h'
    rw [h, h']; rfl
  · rw [setWin_same]
    unfold resetState
    split <;> simp_all

theorem resetWindow_reports (w : Fin 192) (s : State) :
    (resetWindow w s).2 = (s.cfg.windows[w].seq == .seqF && s.win[w] == .returned) := by
  unfold resetWindow
  generalize s.cfg.windows[w].seq = q
  generalize s.win[w] = x
  cases q <;> cases x <;> rfl

theorem resetWindow_windows (w : Fin 192) (s : State) : OnlyWindows s (resetWindow w s).1 := by
  unfold resetWindow
  split
  · exact setWin_windows w .quiet s
  · exact OnlyWindows.refl s

end Sys2Proof.Machine
end

