-- ==== Sys2Proof/Laws/Groups.lean ====
section
/-! SUPPORT. What the First-Out Recorder's operations do to the groups: a RESET press, a capture event, and
the handing on of a full log. -/
namespace Sys2Proof.Machine

/-- A capture event changes its own group alone. -/
theorem captureEvent_grp_other {g q : Fin 16} (h : q ≠ g) (p : Fin 268) (e : TimeStamp) (s : State) :
    (captureEvent g p e s).grp[q] = s.grp[q] := by
  unfold captureEvent
  split
  · extract_lets resolve s'
    have hs : s'.grp[q] = s.grp[q] := modGrp_grp_other _ _ _ _ h
    by_cases hr : resolve = 0
    · simp only [if_pos hr, putFirstOut, write_grp]
      exact hs
    · simp only [if_neg hr]
      exact hs
  all_goals exact modGrp_grp_other _ _ _ _ h

/-! ### A RESET press (R75, R89) -/

theorem resetWindows_windows (ws : List (Fin 192)) (s : State) : OnlyWindows s (resetWindows ws s).1 :=
  countEach_rel .refl (fun _ _ _ => .trans) resetWindow_windows ws s

/-- The home-panel test reads the groups and the active flags alone. -/
theorem mayRearm_congr {s t : State} (hg : t.grp = s.grp)
    (ha : ∀ p : Fin 268, t.pt[p].active = s.pt[p].active) (g : Fin 16) : t.mayRearm g = s.mayRearm g := by
  unfold State.mayRearm
  rw [hg]
  simp only [ha]

/-- A group that takes a RESET press is re-armed where it is at home on the panel and passes the test. -/
theorem rearmAtHome_grp (panel : Fin 4) (g q : Fin 16) (s : State) :
    (rearmAtHome panel g s).1.grp[q] =
      if q = g ∧ s.cfg.groups[g].home = some panel ∧ s.mayRearm g = true then s.grp[q].rearmed
      else s.grp[q] := by
  unfold rearmAtHome
  by_cases h : s.cfg.groups[g].home = some panel ∧ s.mayRearm g = true
  · rw [if_pos h]
    by_cases e : q = g
    · subst e
      rw [if_pos ⟨rfl, h⟩]
      exact modGrp_grp_self _ _ _
    · rw [if_neg fun k => e k.1]
      exact modGrp_grp_other _ _ _ _ e
  · rw [if_neg h, if_neg fun k => h k.2]

/-- It changes the groups alone. -/
theorem rearmAtHome_only (panel : Fin 4) (g : Fin 16) (s : State) :
    (rearmAtHome panel g s).1.cfg = s.cfg ∧ (rearmAtHome panel g s).1.pt = s.pt := by
  unfold rearmAtHome
  split
  · exact ⟨rfl, rfl⟩
  · exact ⟨rfl, rfl⟩

/-- A press re-arms exactly the groups at home on the panel that pass its test. -/
theorem rearmHome_grp (panel : Fin 4) (s : State) (g : Fin 16) :
    (rearmHome panel s).1.grp[g] =
      if s.cfg.groups[g].home = some panel ∧ s.mayRearm g = true then s.grp[g].rearmed else s.grp[g] := by
  unfold rearmHome
  rw [countEach_fst]
  have h := foldl_view (P := fun t => t.cfg = s.cfg ∧ t.pt = s.pt)
    (view := fun (t : State) (q : Fin 16) => t.grp[q])
    (g := fun q r => if s.cfg.groups[q].home = some panel ∧
        (r.state == .captured && r.firstOut.all fun p => !s.pt[p].active) = true then r.rearmed else r)
    (f := fun t q => (rearmAtHome panel q t).1)
    (fun t q ht => by
      obtain ⟨hc, hp⟩ := rearmAtHome_only panel q t
      exact ⟨hc.trans ht.1, hp.trans ht.2⟩)
    (fun t q ht => by
      have hm : t.mayRearm q = (t.grp[q].state == .captured && t.grp[q].firstOut.all fun p => !s.pt[p].active) := by
        unfold State.mayRearm
        rw [ht.2]
      simp only [rearmAtHome_grp, true_and, ht.1, hm])
    (fun t q b ht hb => by simp only [rearmAtHome_grp, hb, false_and, if_false])
    (List.finRange 16) s (List.nodup_finRange _) ⟨rfl, rfl⟩ g
  rw [if_pos (List.mem_finRange g)] at h
  exact h

/-- A RESET press tests the active flags that stand when it is taken, whether or not its records fill the
log. -/
theorem resetKey_grp (p : Fin 4) (s : State) (g : Fin 16) :
    (resetKey p s).grp[g] =
      if s.cfg.groups[g].home = some p ∧ s.mayRearm g = true then s.grp[g].rearmed else s.grp[g] := by
  unfold resetKey
  extract_lets r x
  have hw : OnlyWindows s r.1 := resetWindows_windows _ s
  have hr := (writeOperator_ripple r.1 .reset (some p) r.2)
  have hk := hr.kept
  have hg : (r.1.writeOperator .reset (some p) r.2).grp = s.grp := hk.2.2.2.1.trans hw.grp
  have hc : (r.1.writeOperator .reset (some p) r.2).cfg.groups = s.cfg.groups := by
    rw [hr.ripple.kept.groups, hw.cfg]
  rw [(writeOperator_ripple x.1 .groupReset (some p) x.2).kept.2.2.2.1, rearmHome_grp p _ g,
    mayRearm_congr hg (fun q => by rw [hk.2.1 q, hw.pt]) g, hg, hc]

/-! ### Point 261 -/

/-- Handing on an active flag reaches the group that the point's record names alone. -/
theorem deliverActive_grp_other {g : Option (Fin 16)} {q : Fin 16} (h : g ≠ some q) (p : Fin 268)
    (cause : Cause) (t : TimeStamp) (w : Option (Fin 192)) (s : State) :
    (deliverActive p cause t w g s).grp[q] = s.grp[q] := by
  unfold deliverActive
  extract_lets v s'
  have hs : s'.grp = s.grp := by
    unfold s'
    split
    · rfl
    · split
      · exact (arrival_windows _ _ _).grp
      · exact (departure_windows _ _).grp
  cases g with
  | none => simp only [hs]
  | some g' =>
    by_cases hv : (v && cause.captures) = true
    · have hq : q ≠ g' := fun e => h (congrArg some e.symm)
      simp only [if_pos hv, captureEvent_grp_other hq, hs]
    · simp only [if_neg hv, hs]

theorem changeActive_grp_other {g : Option (Fin 16)} {q : Fin 16} (h : g ≠ some q) (p : Fin 268)
    (cause : Cause) (t : TimeStamp) (w : Option (Fin 192)) (s : State) :
    (changeActive p cause t w g s).grp[q] = s.grp[q] := by
  unfold changeActive
  extract_lets v
  by_cases hv : s.pt[p].active = v
  · simp only [if_pos hv]
  · simp only [if_neg hv, deliverActive_grp_other h, modPt_grp]

theorem handLogOnce_grp_other {s : State} {q : Fin 16}
    (h : s.cfg.points[sysPoint 5].memberOf ≠ some q) (cause : Cause) :
    (handLogOnce cause s).grp[q] = s.grp[q] := by
  unfold handLogOnce
  extract_lets p t c
  simp only [(TripRipple.each (fun k s => takeTermChange_ripple handTrip_ripple _ _ k s) _).kept.2.2.2.1]
  exact changeActive_grp_other h _ _ _ _ _

/-- What point 261 drives reaches no group but its own. -/
theorem logged_grp_other {f : State → State} {s : State} {q : Fin 16}
    (h : (f s).cfg.points[sysPoint 5].memberOf ≠ some q) : (logged f s).grp[q] = (f s).grp[q] := by
  have once := handLogOnce_grp_other h .system
  unfold logged loggedAs handLog
  extract_lets t u
  by_cases ht : t.pt[sysPoint 5].qual = s.pt[sysPoint 5].qual
  · simp only [if_pos ht, t]
  · by_cases hu : u.pt[sysPoint 5].qual = t.pt[sysPoint 5].qual
    · simp only [if_neg ht, if_pos hu]
      exact once
    · simp only [if_neg ht, if_neg hu]
      refine (handLogOnce_grp_other ?_ .system).trans once
      rw [(handLogOnce_ripple .system (f s)).kept.points]
      exact h

end Sys2Proof.Machine
end

