-- ==== Sys2Proof/Laws/Outputs.lean ====
section
/-! SUPPORT. What the operations of the Output Stage do: a change of demand, the manual demand,
CLEAR_FAULTS. -/
namespace Sys2Proof.Machine

/-! ### Demand -/

/-- Two updates of one output are one. -/
theorem modOut_modOut (s : State) (o : Fin 16) (f g : OutputRun → OutputRun) :
    (s.modOut o f).modOut o g = s.modOut o fun r => g (f r) := by
  simp [State.modOut]

/-- An update of an output is what it makes of the output as it stands. -/
theorem modOut_congr {s : State} {o : Fin 16} {f g : OutputRun → OutputRun} (h : f s.out[o] = g s.out[o]) :
    s.modOut o f = s.modOut o g := by
  simp only [State.modOut, h]

/-- Bringing the commanded state to a value changes its output alone (R130). -/
theorem setCommanded_eq (o : Fin 16) (v : Bool) (s : State) :
    setCommanded o v s = s.modOut o fun r => r.driven s.cfg.outputs[o] v s.now := by
  by_cases h : s.out[o].commanded = v
  · have : s.out[o].driven s.cfg.outputs[o] v s.now = s.out[o] := if_pos h
    simp only [setCommanded, if_pos h, State.modOut, this]
    simp
  · have : s.out[o].driven s.cfg.outputs[o] v s.now =
        { s.out[o] with commanded := v, verify := s.freshVerify o } := by
      simp only [OutputRun.driven, if_neg h, State.freshVerify, Config.unitsPerMs, Nat.mul_comm]
    simp only [setCommanded, if_neg h, State.modOut, this]

/-- Demand formed again, where equations and manual demand have become `e` and `m`: a rise or a fall acts
on the commanded state (R126 to R128). -/
theorem applyDemand_eq (o : Fin 16) (e : BitVec 32) (m : Bool) (s : State) :
    applyDemand o s.out[o].demanded (s.modOut o fun r => { r with demanding := e, manual := m }) =
      s.modOut o fun r => r.demandedBy s.cfg.outputs[o] s.operating e m s.now := by
  have hd : (s.modOut o fun r => { r with demanding := e, manual := m }).out[o].demanded =
      (e != 0#32 || m) := by rw [modOut_out_self]; rfl
  unfold applyDemand
  simp only [hd, modOut_operating, modOut_cfg]
  by_cases h : s.operating = false ∨ s.out[o].demanded = (e != 0#32 || m)
  · rw [if_pos (by simpa [or_comm] using h)]
    have : s.out[o].demandedBy s.cfg.outputs[o] s.operating e m s.now =
        { s.out[o] with demanding := e, manual := m } := if_pos h
    simp only [State.modOut, this]
  · rw [if_neg (by simpa [or_comm] using h)]
    have : s.out[o].demandedBy s.cfg.outputs[o] s.operating e m s.now =
        match s.cfg.outputs[o].kind with
        | .sustained =>
          OutputRun.driven { s.out[o] with demanding := e, manual := m } s.cfg.outputs[o]
            (e != 0#32 || m) s.now
        | .pulse =>
          if (e != 0#32 || m) = true ∧ s.out[o].pulse = none then
            OutputRun.driven { s.out[o] with
              demanding := e, manual := m, pulse := some ⟨s.now, 10 * s.cfg.outputs[o].width⟩ }
              s.cfg.outputs[o] true s.now
          else { s.out[o] with demanding := e, manual := m } := if_neg h
    rw [show (s.modOut o fun r => r.demandedBy s.cfg.outputs[o] s.operating e m s.now) =
      s.modOut o fun _ => s.out[o].demandedBy s.cfg.outputs[o] s.operating e m s.now from rfl, this]
    cases hk : s.cfg.outputs[o].kind
    · simp only [setCommanded_eq, modOut_modOut, modOut_cfg, modOut_now]
      rfl
    · simp only [modOut_out_self, Option.isNone_iff_eq_none, Bool.and_eq_true]
      split
      · simp only [startPulse, setCommanded_eq, modOut_modOut, modOut_cfg, modOut_now,
          Config.unitsPerMs, Nat.mul_comm]
        rfl
      · rfl

/-- What a change of demanding equations does to its output, and that it does nothing else (R126). -/
theorem changeDemand_eq (o : Fin 16) (f : BitVec 32 → BitVec 32) (s : State) :
    changeDemand o (fun r => { r with demanding := f r.demanding }) s =
      s.modOut o fun r => r.demandedBy s.cfg.outputs[o] s.operating (f r.demanding) r.manual s.now :=
  applyDemand_eq o (f s.out[o].demanding) s.out[o].manual s

/-! ### The manual demand (R133) -/

theorem modOut_write (s : State) (o : Fin 16) (f : OutputRun → OutputRun) (b : RecordBody) :
    (s.modOut o f).write b = (s.write b).modOut o f := by
  unfold State.write
  by_cases h : ((s.put b).log.full && !s.log.full) = true
  · rw [if_pos h]
    exact if_pos h
  · rw [if_neg h]
    exact if_neg h

/-- What setting or clearing a manual demand does: nothing where it stands so; else the demand is formed
again and the OUTPUT record written, and point 261, where the record fills the log, is handed on. -/
theorem setManual_eq (v : Bool) (o : Fin 16) (s : State) :
    setManual v o s =
      if s.out[o].manual = v then s
      else logged (fun s =>
        (s.modOut o fun r =>
          r.demandedBy s.cfg.outputs[o] s.operating r.demanding v s.now).write
          (.output o (if v then .manualSet else .manualClear))) s := by
  unfold setManual
  congr 1
  congr 1
  funext s
  have h := applyDemand_eq o s.out[o].demanding v
    (s.write (.output o (if v then .manualSet else .manualClear)))
  simp only [write_out, write_cfg, write_now, write_operating] at h
  rw [modOut_write, modOut_write, modOut_congr (f := fun r => { r with manual := v })
    (g := fun r => { r with demanding := s.out[o].demanding, manual := v }) (by rw [write_out]), h]
  exact modOut_congr (by rw [write_out])

theorem demandedBy_manual (r : OutputRun) (c : OutputConfig) (op : Bool) (e : BitVec 32) (m : Bool)
    (now : Nat) : (r.demandedBy c op e m now).manual = m := by
  unfold OutputRun.demandedBy
  extract_lets before after r'
  split
  · rfl
  · split
    · unfold OutputRun.driven; split <;> rfl
    · split
      · unfold OutputRun.driven; split <;> rfl
      · rfl

/-- A manual demand becomes as it is set, and no other manual demand changes. -/
theorem setManual_manual (v : Bool) (o q : Fin 16) (s : State) :
    (setManual v o s).out[q].manual = if q = o then v else s.out[q].manual := by
  rw [setManual_eq]
  by_cases h : s.out[o].manual = v
  · rw [if_pos h]
    split
    · rename_i e; rw [e, h]
    · rfl
  · rw [if_neg h]
    unfold logged loggedAs
    extract_lets t
    have ht : t.out[q].manual = if q = o then v else s.out[q].manual := by
      simp only [t, write_out]
      by_cases e : q = o
      · subst e; rw [modOut_out_self, demandedBy_manual, if_pos rfl]
      · rw [modOut_out_other _ _ _ _ e, if_neg e]
    split
    · exact ht
    · rw [((handLog_ripple _ _).kept.out q).1, ht]

/-- OUTPUT_SET and OUTPUT_CLEAR bring the manual demands of their mask to what they ask, and no other. -/
theorem setManualOf_manual (v : Bool) (mask : Nat) (s : State) (o : Fin 16) :
    (setManualOf v mask s).out[o].manual = if mask.testBit o.val then v else s.out[o].manual :=
  each_view (P := fun _ => True) (view := fun (t : State) (q : Fin 16) => t.out[q].manual)
    (g := fun q x => if mask.testBit q.val then v else x)
    (f := fun o s => if mask.testBit o.val then setManual v o s else s) (fun _ _ _ => trivial)
    (fun t q _ => by
      by_cases h : mask.testBit q.val = true
      · simp only [h, if_true, setManual_manual v q q t]
      · simp only [h, Bool.false_eq_true, if_false])
    (fun t q b _ hb => by
      by_cases h : mask.testBit q.val = true
      · simp only [h, if_true, setManual_manual, if_neg hb]
      · simp only [h, Bool.false_eq_true, if_false])
    s trivial o

/-! ### CLEAR_FAULTS (R132) -/

/-- Clearing one fault flag clears it and no other. -/
theorem clearFault_fault (o q : Fin 16) (s : State) :
    (clearFault o s).out[q].fault = if q = o then false else s.out[q].fault := by
  unfold clearFault
  rw [((record_ripple _ _).kept.out q).2.2]
  by_cases h : q = o
  · subst h; simp
  · rw [modOut_out_other _ _ _ _ h, if_neg h]

/-- CLEAR_FAULTS clears the fault flags of its mask that it clears as the outputs stand when it is taken,
and no other. -/
theorem clearFaultsOf_fault (mask : Nat) (s : State) (o : Fin 16) :
    (clearFaultsOf mask s).out[o].fault =
      (s.out[o].fault && !(mask.testBit o.val && s.faultClears o)) := by
  unfold clearFaultsOf
  rw [((sysFollow_kept false 6 _).out o).2.2]
  have h := each_view (P := fun _ => True) (view := fun (t : State) (q : Fin 16) => t.out[q].fault)
    (g := fun q x => x && !(mask.testBit q.val && s.faultClears q))
    (f := fun o t => if mask.testBit o.val && s.faultClears o then clearFault o t else t)
    (fun _ _ _ => trivial)
    (fun t q _ => by
      by_cases h : (mask.testBit q.val && s.faultClears q) = true
      · simp only [h, if_true, clearFault_fault q q t, Bool.not_true, Bool.and_false]
      · simp only [h, Bool.false_eq_true, if_false, Bool.not_false, Bool.and_true])
    (fun t q b _ hb => by
      by_cases h : (mask.testBit q.val && s.faultClears q) = true
      · simp only [if_pos h, clearFault_fault, if_neg hb]
      · simp only [if_neg h])
    s trivial o
  exact h

end Sys2Proof.Machine
end

