-- ==== Sys2Proof/Laws/Puts.lean ====
section
/-! SUPPORT. What the candidate records of the PUT requests are: each reader of a body gives exactly the
record that the predicate of Safety.lean describes, and the checks of the rules are the owners' checks. -/
namespace Sys2Proof.Machine

/-- A field picked by the mask has the value that `putField` describes, where the reader gives exactly the
values for which `given` holds. -/
theorem pick_eq_some {α : Type} {m k : Nat} {read : Option α} {old x : α} {given : Prop}
    (h : read = some x ↔ given) : pick m k read old = some x ↔ putField m k given (x = old) := by
  unfold pick putField
  split
  · exact h
  · simp [eq_comm]

theorem toFin_eq_some {n x : Nat} {i : Fin n} : toFin n x = some i ↔ i.val = x := by
  unfold toFin; split
  · constructor
    · intro h; cases h; rfl
    · intro h; subst h; rfl
  · rename_i h; constructor
    · intro h; cases h
    · intro h'; exact absurd (h' ▸ i.isLt) h

theorem kindOf_eq_some {x : Nat} {k : PointKind} : kindOf x = some k ↔ k.code = x := by
  unfold kindOf
  match x with
  | 0 | 1 | 2 | 3 | 4 | 5 => cases k <;> simp [PointKind.code]
  | n + 6 => cases k <;> simp [PointKind.code]

theorem senseOf_eq_some {x : Nat} {k : Sense} : senseOf x = some k ↔ k.code = x := by
  unfold senseOf
  match x with
  | 0 | 1 => cases k <;> simp [Sense.code]
  | n + 2 => cases k <;> simp [Sense.code]

theorem modeOf_eq_some {x : Nat} {k : Mode} : modeOf x = some k ↔ k.code = x := by
  unfold modeOf
  match x with
  | 0 | 1 | 2 | 3 | 4 | 5 => cases k <;> simp [Mode.code]
  | n + 6 => cases k <;> simp [Mode.code]

theorem seqOf_eq_some {x : Nat} {k : SeqType} : seqOf x = some k ↔ k.code = x := by
  unfold seqOf
  match x with
  | 0 | 1 | 2 | 3 => cases k <;> simp [SeqType.code]
  | n + 4 => cases k <;> simp [SeqType.code]

theorem classOf_eq_some {x : Nat} {k : WindowClass} : classOf x = some k ↔ k.code = x := by
  unfold classOf
  match x with
  | 0 | 1 | 2 | 3 | 4 => cases k <;> simp [WindowClass.code]
  | n + 5 => cases k <;> simp [WindowClass.code]

theorem colourOf_eq_some {x : Nat} {k : Colour} : colourOf x = some k ↔ k.code = x := by
  unfold colourOf
  match x with
  | 0 | 1 | 2 => cases k <;> simp [Colour.code]
  | n + 3 => cases k <;> simp [Colour.code]

theorem speedOf_eq_some {x : Nat} {k : LinkSpeed} : speedOf x = some k ↔ k.code = x := by
  unfold speedOf
  match x with
  | 0 | 1 | 2 | 3 | 4 => cases k <;> simp [LinkSpeed.code]
  | n + 5 => cases k <;> simp [LinkSpeed.code]

theorem flagOf_eq_some {x : Nat} {v : Bool} : flagOf x = some v ↔ v.toNat = x := by
  unfold flagOf
  match x with
  | 0 | 1 => cases v <;> simp
  | n + 2 => cases v <;> simp

theorem inRange_eq_some {lo hi x n : Nat} : inRange lo hi x = some n ↔ n = x ∧ lo ≤ n ∧ n ≤ hi := by
  unfold inRange; grind

theorem inSteps_eq_some {lo hi step x n : Nat} :
    inSteps lo hi step x = some n ↔ n = x ∧ lo ≤ n ∧ n ≤ hi ∧ n % step = 0 := by
  unfold inSteps; grind

theorem toRef_eq_some {n none_ x : Nat} {i : Option (Fin n)} (h : n ≤ none_) :
    toRef n none_ x = some i ↔ (i.map Fin.val).getD none_ = x := by
  unfold toRef
  cases i with
  | none => 
    by_cases hx : x = none_
    · simp [hx]
    · simp [hx]; omega
  | some i =>
    by_cases hx : x = none_
    · subst hx; simp; omega
    · simp [hx, toFin_eq_some]

theorem rd8_lt (b : List Byte) (i : Nat) : rd8 b i < 256 := (b.getD i 0#8).isLt

theorem optCode_eq {n : Nat} (i : Option (Fin n)) : optCode i = (i.map Fin.val).getD 255 := by
  cases i <;> rfl

theorem pointCode_eq (i : Option (Fin 268)) : pointCode i = (i.map Fin.val).getD 65535 := by
  cases i <;> rfl

theorem ofNat_eq_some {x : Nat} {m : BitVec 5} :
    (inRange 0 31 x).map (BitVec.ofNat 5) = some m ↔ m.toNat = x := by
  simp only [Option.map_eq_some_iff, inRange_eq_some]
  constructor
  · rintro ⟨n, ⟨rfl, -, h⟩, rfl⟩
    simp; omega
  · intro h
    exact ⟨x, ⟨rfl, by omega, by have := m.isLt; omega⟩, by rw [← h]; simp⟩

theorem outputKindOf_eq_some {x : Nat} {k : OutputKind} :
    [OutputKind.sustained, .pulse][x]? = some k ↔ k.code = x := by
  match x with
  | 0 | 1 => cases k <;> simp [OutputKind.code]
  | n + 2 => cases k <;> simp [OutputKind.code]

theorem clearModeOf_eq_some {x : Nat} {k : NewsClearMode} :
    [NewsClearMode.clearOnRead, .clearByRequest][x]? = some k ↔ k.code = x := by
  match x with
  | 0 | 1 => cases k <;> simp [NewsClearMode.code]
  | n + 2 => cases k <;> simp [NewsClearMode.code]

theorem holdOf_eq_some {x : Nat} {k : Hold} : [Hold.latch, .follow][x]? = some k ↔ k.code = x := by
  match x with
  | 0 | 1 => cases k <;> simp [Hold.code]
  | n + 2 => cases k <;> simp [Hold.code]

theorem afterOf_eq_some {x : Nat} {k : AfterTrip} :
    [AfterTrip.rearm, .disarm][x]? = some k ↔ k.code = x := by
  match x with
  | 0 | 1 => cases k <;> simp [AfterTrip.code]
  | n + 2 => cases k <;> simp [AfterTrip.code]

theorem enablesOf_eq_some {x : Nat} {e : Enables} : enablesOf x = some e ↔ e.nat = x := by
  unfold enablesOf
  by_cases h : x < 32
  · simp only [h, if_true, Option.some.injEq]
    rcases e with ⟨a, b, c, d, f⟩
    constructor
    · intro he
      have hx : ∀ x < 32, (Enables.mk (x.testBit 0) (x.testBit 1) (x.testBit 2) (x.testBit 3)
          (x.testBit 4)).nat = x := by decide
      rw [← he]; exact hx x h
    · intro he; subst he; revert a b c d f; decide
  · simp only [h, if_false, reduceCtorEq, false_iff]
    rcases e with ⟨a, b, c, d, f⟩
    intro he; apply h; subst he; revert a b c d f; decide

theorem panelOf_eq_some {x : Nat} {p : Fin 4} : panelOf x = some p ↔ x = p.val + 1 := by
  unfold panelOf
  split
  · simp; omega
  · rw [toFin_eq_some]; omega

theorem homeOf_eq_some {x : Nat} {p : Option (Fin 4)} : homeOf x = some p ↔ panelCode p = x := by
  unfold homeOf
  cases p with
  | none => by_cases h : x = 0 <;> simp [h, panelCode]; omega
  | some p => by_cases h : x = 0 <;> simp [h, panelCode, panelOf_eq_some]; omega

/-! ### The candidates -/

theorem some_eq_some {x c : Nat} : some x = some c ↔ c = x := by simp [eq_comm]

theorem inRange_zero {hi x n : Nat} : inRange 0 hi x = some n ↔ n = x ∧ n ≤ hi := by
  simp [inRange_eq_some]

/-- A byte in a range up to 255 is bounded below alone. -/
theorem inRange_byte {lo i n : Nat} {b : List Byte} :
    inRange lo 255 (rd8 b i) = some n ↔ n = rd8 b i ∧ lo ≤ n := by
  have := rd8_lt b i
  rw [inRange_eq_some]; omega

theorem of_guarded {α : Type} {g : Bool} {x c : α}
    (h : (if g = true then none else some x) = some c) : g = false ∧ x = c := by
  cases g <;> simp_all

/-- The reader of PUT_POINT's body gives the candidate of R2. -/
theorem pointCandidate_eq_some {p : Fin 268} {old c : PointConfig} {b : List Byte} :
    pointCandidate (256 ≤ p.val) old b = some c ↔ PointPut p old b c := by
  unfold pointCandidate PointPut
  simp only [Option.bind_eq_bind, Option.bind_eq_some_iff, pick_eq_some kindOf_eq_some,
    pick_eq_some toFin_eq_some, pick_eq_some senseOf_eq_some, pick_eq_some inRange_zero,
    pick_eq_some inRange_byte, pick_eq_some some_eq_some,
    pick_eq_some ofNat_eq_some, pick_eq_some (toRef_eq_some (show 192 ≤ 255 by decide)),
    pick_eq_some (toRef_eq_some (show 16 ≤ 255 by decide)), pick_eq_some flagOf_eq_some,
    ← optCode_eq]
  constructor
  · rintro ⟨_, h0, _, h1, _, h2, _, h3, _, h4, _, h5, _, h6, _, h7, _, h8, _, h9, hg⟩
    obtain ⟨hg, rfl⟩ := of_guarded hg
    refine ⟨?_, h0, h1, h2, h3, h4, h5, h6, h7, h8, h9, ?_, ?_⟩ <;> simp_all [maskWithin]
  · rintro ⟨hm, h0, h1, h2, h3, h4, h5, h6, h7, h8, h9, hk, hl⟩
    refine ⟨_, h0, _, h1, _, h2, _, h3, _, h4, _, h5, _, h6, _, h7, _, h8, _, h9, if_neg ?_⟩
    by_cases hp : 256 ≤ p.val
    · simp [maskWithin, hm, hp, hl hp]
    · simp [maskWithin, hm, hp, hk (by omega)]

/-- The reader of PUT_UNIT's body gives the candidate of R24. -/
theorem unitCandidate_eq_some {old c : UnitConfig} {b : List Byte} :
    unitCandidate old b = some c ↔ UnitPut old b c := by
  unfold unitCandidate UnitPut
  simp only [Option.bind_eq_bind, Option.bind_eq_some_iff, pick_eq_some inRange_zero,
    pick_eq_some (toRef_eq_some (show 268 ≤ 65535 by decide)), ← pointCode_eq]
  constructor
  · rintro ⟨_, h0, _, h1, _, h2, _, h3, _, h4, hg⟩
    obtain ⟨hg, rfl⟩ := of_guarded hg
    exact ⟨by simpa [maskWithin] using hg, h0, h1, h2, h3, h4⟩
  · rintro ⟨hm, h0, h1, h2, h3, h4⟩
    exact ⟨_, h0, _, h1, _, h2, _, h3, _, h4, if_neg (by simpa [maskWithin] using hm)⟩

/-- The reader of PUT_WINDOW's body gives the candidate of R37. -/
theorem windowCandidate_eq_some {old c : WindowConfig} {b : List Byte} :
    windowCandidate old b = some c ↔ WindowPut old b c := by
  unfold windowCandidate WindowPut
  simp only [Option.bind_eq_bind, Option.bind_eq_some_iff, pick_eq_some seqOf_eq_some,
    pick_eq_some classOf_eq_some, pick_eq_some colourOf_eq_some, pick_eq_some flagOf_eq_some]
  constructor
  · rintro ⟨_, h0, _, h1, _, h2, _, h3, hg⟩
    obtain ⟨hg, rfl⟩ := of_guarded hg
    exact ⟨by simpa [maskWithin] using hg, h0, h1, h2, h3⟩
  · rintro ⟨hm, h0, h1, h2, h3⟩
    exact ⟨_, h0, _, h1, _, h2, _, h3, if_neg (by simpa [maskWithin] using hm)⟩

/-- The reader of PUT_GROUP's body gives the candidate of R63. -/
theorem groupCandidate_eq_some {old c : GroupConfig} {b : List Byte} :
    groupCandidate old b = some c ↔ GroupPut old b c := by
  unfold groupCandidate GroupPut
  simp only [Option.bind_eq_bind, Option.bind_eq_some_iff, pick_eq_some some_eq_some,
    pick_eq_some homeOf_eq_some]
  constructor
  · rintro ⟨_, h0, _, h1, hg⟩
    obtain ⟨hg, rfl⟩ := of_guarded hg
    exact ⟨by simpa [maskWithin] using hg, h0, h1⟩
  · rintro ⟨hm, h0, h1⟩
    exact ⟨_, h0, _, h1, if_neg (by simpa [maskWithin] using hm)⟩

/-- The reader of PUT_OUTPUT's body gives the candidate of R124. -/
theorem outputCandidate_eq_some {old c : OutputConfig} {b : List Byte} :
    outputCandidate old b = some c ↔ OutputPut old b c := by
  unfold outputCandidate OutputPut
  simp only [Option.bind_eq_bind, Option.bind_eq_some_iff, pick_eq_some outputKindOf_eq_some,
    pick_eq_some inSteps_eq_some, pick_eq_some inRange_eq_some, pick_eq_some flagOf_eq_some,
    pick_eq_some toFin_eq_some]
  constructor
  · rintro ⟨_, h0, _, h1, _, h2, _, h3, _, h4, hg⟩
    obtain ⟨hg, rfl⟩ := of_guarded hg
    exact ⟨by simpa [maskWithin] using hg, h0, h1, h2, h3, h4⟩
  · rintro ⟨hm, h0, h1, h2, h3, h4⟩
    exact ⟨_, h0, _, h1, _, h2, _, h3, _, h4, if_neg (by simpa [maskWithin] using hm)⟩

/-- The reader of PUT_SETTINGS's body gives the candidate of R163. -/
theorem settingsCandidate_eq_some {old c : Settings} {b : List Byte} :
    settingsCandidate old b = some c ↔ SettingsPut old b c := by
  unfold settingsCandidate SettingsPut
  simp only [Option.bind_eq_bind, Option.bind_eq_some_iff, pick_eq_some inSteps_eq_some,
    pick_eq_some speedOf_eq_some, pick_eq_some some_eq_some, pick_eq_some flagOf_eq_some,
    pick_eq_some inRange_zero, pick_eq_some clearModeOf_eq_some, pick_eq_some enablesOf_eq_some]
  constructor
  · rintro ⟨_, h0, _, h1, _, h2, _, h3, _, h4, _, h5, _, h6, hg⟩
    obtain ⟨hg, rfl⟩ := of_guarded hg
    exact ⟨by simpa [maskWithin] using hg, h0, h1, h2, h3, h4, h5, h6⟩
  · rintro ⟨hm, h0, h1, h2, h3, h4, h5, h6⟩
    exact ⟨_, h0, _, h1, _, h2, _, h3, _, h4, _, h5, _, h6, if_neg (by simpa [maskWithin] using hm)⟩

theorem clampBrightness_eq (n : Nat) : clampBrightness n = if n = 0 then 1 else min n 8 := rfl

theorem positionsOf_eq_some {bs : List Byte} {ws : List (Fin 192)} :
    positionsOf bs = some ws ↔ ws.map Fin.val = bs.map BitVec.toNat := by
  unfold positionsOf
  induction bs generalizing ws with
  | nil => cases ws <;> simp
  | cons x xs ih =>
    rw [List.mapM_cons]
    simp only [Option.bind_eq_bind, Option.bind_eq_some_iff, toFin_eq_some, ih]
    constructor
    · rintro ⟨w, hw, rest, hr, h⟩
      cases h
      rw [List.map_cons, List.map_cons, hw, hr]
    · intro h
      cases ws with
      | nil => cases h
      | cons w ws =>
        rw [List.map_cons, List.map_cons, List.cons.injEq] at h
        exact ⟨w, h.1, ws, h.2, rfl⟩

/-- The reader of PUT_PANEL's body, for the lengths that check 2 passes, gives the record of R78. -/
theorem panelRecord_eq_some {c : PanelConfig} {b : List Byte} (hb : b.length ≤ 68) :
    panelRecord b = some c ↔ PanelPut b c := by
  unfold panelRecord PanelPut
  simp only [Option.bind_eq_bind, Option.bind_eq_some_iff, flagOf_eq_some, positionsOf_eq_some,
    clampBrightness_eq]
  constructor
  · rintro ⟨_, h0, _, h1, h2⟩
    split at h2
    · rename_i hn
      cases h2
      simp only [Bool.and_eq_true, decide_eq_true_eq] at hn
      exact ⟨h0, rfl, hn.2, h1⟩
    · cases h2
  · rintro ⟨h0, h1, h2, h3⟩
    refine ⟨_, h0, _, h3, ?_⟩
    rw [if_pos (by simp; omega), ← h1]

theorem rdTerm_eq_some {x : Term} {b : List Byte} {i : Nat} :
    rdTerm b i = some x ↔ TermPut b i x := by
  unfold rdTerm TermPut termOf
  split
  · rename_i h; cases x <;> simp [flagOf_eq_some, h]; exact eq_comm
  · rename_i h; cases x <;> simp [toFin_eq_some, h]; exact eq_comm
  · rename_i h; cases x <;> simp [toFin_eq_some, h]; exact eq_comm
  · rename_i h
    simp only [Option.bind_eq_bind, Option.bind_eq_some_iff, toFin_eq_some, modeOf_eq_some]
    constructor
    · rintro ⟨u, hu, m, hm, hx⟩
      cases hx
      exact ⟨h, hu.symm, hm.symm⟩
    · intro hx
      cases x <;> simp_all
  · rename_i h0 h1 h2 h3; cases x <;> simp_all

/-- The reader of PUT_EQUATION's body gives the record of R105. -/
theorem equationRecord_eq_some {c : EquationRecord} {b : List Byte} :
    equationRecord b = some c ↔ EquationPut b c := by
  unfold equationRecord EquationPut
  simp only [Option.bind_eq_bind, Option.bind_eq_some_iff, flagOf_eq_some, toFin_eq_some,
    rdTerm_eq_some, inRange_zero, holdOf_eq_some, afterOf_eq_some]
  have ho : ∀ x : Word, x.toNat = rd16 b 14 ↔ BitVec.ofNat 16 (rd16 b 14) = x := by
    intro x
    have h1 := rd8_lt b 14
    have h2 := rd8_lt b (14 + 1)
    have h3 : rd16 b 14 < 65536 := by unfold rd16; omega
    constructor
    · intro h; rw [← h]; simp
    · intro h; rw [← h]; simp; omega
  constructor
  · rintro ⟨_, h0, _, h1, _, h2, _, h3, _, h4, _, h5, _, h6, _, h7, h8⟩
    cases h8
    exact ⟨h0, h1, h2, h3, h4, h5.1, h5.2, (ho _).2 rfl, h6, h7⟩
  · rintro ⟨h0, h1, h2, h3, h4, h5, h5', h8, h6, h7⟩
    refine ⟨_, h0, _, h1, _, h2, _, h3, _, h4, _, ⟨h5, h5'⟩, _, h6, _, h7, ?_⟩
    rw [(ho _).1 h8]; rfl

/-! ### The owners' checks -/

theorem repeats_iff {ws : List (Fin 192)} : repeats ws = true ↔ ¬ ws.Nodup := by
  induction ws with
  | nil => simp [repeats]
  | cons w rest ih =>
    rw [repeats, Bool.or_eq_true, ih, List.nodup_cons, List.contains_iff_mem]
    tauto

theorem wrongRole_iff {cfg : Tables} {mask k : Nat} {kind : PointKind} {p : Option (Fin 268)} :
    wrongRole cfg mask k kind p = true ↔
      ∃ q : Fin 268, cfg.points[q].kind ≠ kind ∧ mask.testBit k = true ∧ p = some q := by
  unfold wrongRole
  cases p with
  | none => simp
  | some q => simp [and_comm]

/-- The owner's checks of PUT_UNIT are those of R24. -/
theorem unitConflict_iff {cfg : Tables} {u : Fin 9} {mask : Nat} {c : UnitConfig} :
    unitConflict cfg u mask c = true ↔ unitAtOdds cfg u mask c := by
  unfold unitConflict unitAtOdds
  simp only [Bool.or_eq_true, Bool.and_eq_true, wrongRole_iff, beq_iff_eq, bne_iff_ne, ne_eq]
  constructor
  · rintro ((h | (⟨q, h⟩ | ⟨q, h⟩) | ⟨q, h⟩) | ⟨q, h⟩)
    · exact .inl h
    · exact .inr (.inl ⟨q, h.1, .inl h.2⟩)
    · exact .inr (.inl ⟨q, h.1, .inr (.inl h.2)⟩)
    · exact .inr (.inl ⟨q, h.1, .inr (.inr h.2)⟩)
    · exact .inr (.inr ⟨q, h⟩)
  · rintro (h | ⟨q, h, h' | h' | h'⟩ | ⟨q, h⟩)
    · exact .inl (.inl h)
    · exact .inl (.inr (.inl (.inl ⟨q, h, h'⟩)))
    · exact .inl (.inr (.inl (.inr ⟨q, h, h'⟩)))
    · exact .inl (.inr (.inr ⟨q, h, h'⟩))
    · exact .inr ⟨q, h⟩

theorem contributes_eq_some {c : PointConfig} {w : Fin 192} :
    c.contributes = some w ↔ c.feeds w := by
  unfold PointConfig.contributes PointConfig.feeds
  cases c.kind <;> simp [PointKind.annunciates]

theorem mem_contributors {cfg : Tables} {w : Fin 192} {q : Fin 268} :
    q ∈ cfg.contributors w ↔ cfg.points[q].feeds w := by
  simp [Tables.contributors, contributes_eq_some]

theorem contributors_nodup (cfg : Tables) (w : Fin 192) : (cfg.contributors w).Nodup :=
  (List.nodup_finRange 268).filter _

/-- A contributor list has 8 points or more exactly where 8 different points feed the window. -/
theorem eight_contributors {cfg : Tables} {w : Fin 192} :
    8 ≤ (cfg.contributors w).length ↔
      ∃ ps : List (Fin 268), ps.Nodup ∧ ps.length = 8 ∧ ∀ q ∈ ps, cfg.points[q].feeds w := by
  constructor
  · intro h
    refine ⟨(cfg.contributors w).take 8, (contributors_nodup cfg w).sublist (List.take_sublist ..),
      by simp [h], fun q hq => mem_contributors.1 (List.mem_of_mem_take hq)⟩
  · rintro ⟨ps, hn, hl, hf⟩
    rw [← hl]
    exact (List.subperm_of_subset hn fun q hq => mem_contributors.2 (hf q hq)).length_le

/-- The check that a window has no room is that of R2. -/
theorem windowFull_iff {cfg : Tables} {p : Fin 268} {c : PointConfig} :
    windowFull cfg p c ↔
      ∃ w : Fin 192, c.contributes = some w ∧ cfg.points[p].contributes ≠ some w ∧
        8 ≤ (cfg.contributors w).length := by
  unfold windowFull
  simp only [← eight_contributors, contributes_eq_some, ne_eq]

theorem namedMode_iff {cfg : Tables} {p : Fin 268} :
    cfg.namedMode p = true ↔ ∃ u : Fin 9,
      cfg.units[u].run = some p ∨ cfg.units[u].pump = some p ∨ cfg.units[u].cond = some p := by
  simp [Tables.namedMode, UnitConfig.modePoint, or_assoc]

theorem namedKey_iff {cfg : Tables} {p : Fin 268} :
    cfg.namedKey p = true ↔ ∃ u : Fin 9, cfg.units[u].key = some p := by
  simp [Tables.namedKey]

/-- The owner's checks of PUT_POINT are those of R2: CONFLICT first, then FULL. -/
theorem pointRefusal_eq {cfg : Tables} {p : Fin 268} {mask : Nat} {c : PointConfig} :
    (pointConflict cfg p mask c → pointRefusal cfg p mask c = some .conflict) ∧
    (¬ pointConflict cfg p mask c → windowFull cfg p c → pointRefusal cfg p mask c = some .full) ∧
    (¬ pointConflict cfg p mask c → ¬ windowFull cfg p c → pointRefusal cfg p mask c = none) := by
  have hc : pointConflict cfg p mask c ↔
      ((decide (256 ≤ p.val) && mask % 128 != 0) = true ∨
      ((c.kind == .status || c.kind == .mode || c.kind == .key) &&
        (c.window.isSome || c.group.isSome)) = true ∨
      ((cfg.namedMode p && c.kind != .mode) || (cfg.namedKey p && c.kind != .key)) = true) := by
    unfold pointConflict
    simp only [Bool.or_eq_true, Bool.and_eq_true, decide_eq_true_eq, bne_iff_ne, beq_iff_eq,
      namedMode_iff, namedKey_iff, Option.isSome_iff_ne_none, or_assoc]
  rw [hc, windowFull_iff]
  unfold pointRefusal
  split
  · rename_i h; simp [h]
  · rename_i h1
    split
    · rename_i h; simp [h]
    · rename_i h2
      split
      · rename_i h; simp [h]
      · rename_i h3
        simp only [h1, h2, h3, or_self]
        cases hk : c.contributes with
        | none => simp
        | some w =>
          simp only [Option.some.injEq, exists_eq_left', Bool.and_eq_true, bne_iff_ne, ne_eq,
            decide_eq_true_eq]
          exact ⟨fun h => absurd h (by simp), fun _ h => if_pos h, fun _ h => if_neg h⟩

end Sys2Proof.Machine
end

