-- ==== Sys2Proof/Tests/Slice0.lean ====
section
/-! SUPPORT. Tests: ill-formed commands that the check refuses, the check word, steps of the manual's
worked sequences, and for every statement a state and operands that meet its hypotheses. -/
namespace Sys2Proof.Tests

open Sys2Proof.Machine

set_option maxRecDepth 100000
set_option Elab.async false

/-! ### Helpers -/

/-- The next state of an outcome. -/
def after (o : Host.Outcome State Fault Refusal) : State :=
  match o with
  | .next t => t
  | .fault _ | .refused _ => State.reset

def run (c : Instr) (s : State) : State := after (exec c s)

/-- A request of a selection and a body. -/
def req (sel : Nat) (body : List Nat) : Request := ⟨BitVec.ofNat 16 sel, body.map (BitVec.ofNat 8)⟩

/-- A later moment of elapsed time. -/
def later (n : Nat) (s : State) : State := { s with now := s.now + n }

def pointAt (p : Fin 268) (c : PointConfig) (t : Tables) : Tables :=
  { t with points := t.points.set p.val c p.isLt }

def equationAt (k : Fin 32) (c : EquationRecord) (t : Tables) : Tables :=
  { t with equations := t.equations.set k.val c k.isLt }

def outputAt (o : Fin 16) (c : OutputConfig) (t : Tables) : Tables :=
  { t with outputs := t.outputs.set o.val c o.isLt }

/-- An equation of unit 1 that is true while its term A is. -/
def whileA (a : Term) (delay : Nat) (outs : Word) (hold : Hold) : EquationRecord :=
  { inUse := true, unit := 1, a := a, b := .const false, func := 12, delay := delay, outs := outs,
    hold := hold, after := .rearm }

/-- A small hall: an ALARM point 0 on W0 and G0, an ALARM point 1 without debounce on W1, a STATUS point
2, unit 1 with RUN point 3 and block key 4, panel P1, three equations and two outputs. -/
def hall : Tables :=
  let points : Tables := { Tables.default with
    units := Tables.default.units.set 1 ⟨some 3, none, none, 1, some 4⟩
    windows := (Tables.default.windows.set 0 ⟨.seqF, .c2, .amber, true⟩).set 1
      ⟨.seqN, .c3, .white, false⟩
    panels := Tables.default.panels.set 0 ⟨true, [0, 1], 8⟩
    groups := (Tables.default.groups.set 0 ⟨10, some 0⟩).set 1 ⟨0, none⟩
    settings := { Settings.default with decay := 100, silence := 1, minutePulse := true } }
  outputAt 0 ⟨.sustained, 500, 50, true, 1⟩ <| outputAt 1 ⟨.pulse, 10, 5, true, 1⟩ <|
  equationAt 0 (whileA (.point 0) 100 1 .latch) <| equationAt 1 (whileA (.equation 0) 0 4 .follow) <|
  equationAt 2 (whileA (.point 1) 60000 3 .latch) <|
  pointAt 0 ⟨.alarm, 1, .alarmOnClosed, 8, 20, 60, 0b11111, some 0, some 0, true⟩ <|
  pointAt 1 ⟨.alarm, 0, .alarmOnClosed, 0, 0, 255, 0b11111, some 1, none, true⟩ <|
  pointAt 2 ⟨.status, 0, .alarmOnClosed, 10, 0, 255, 0b11111, none, none, true⟩ <|
  pointAt 3 ⟨.mode, 0, .alarmOnClosed, 10, 0, 255, 0b11111, none, none, true⟩ <|
  pointAt 4 ⟨.key, 0, .alarmOnClosed, 0, 0, 255, 0b11111, none, none, true⟩ points

/-- The hall in COMMISSIONING with nothing abnormal, P1 UP and the clock UNSET. -/
def base : State :=
  { (((((State.reset.setCfg hall).modUn 1 fun r => { r with decoded := .stopped, current := .stopped }).modEqn
      0 fun r => { r with state := .idle }).modEqn 1 fun r => { r with state := .idle }).modEqn
      2 fun r => { r with state := .idle }).modPan 0 fun r =>
        { r with link := .up, seen := some ⟨0, 0, 0⟩ } with
    service := .commissioning, decay := some 0 }

/-! ### The check word, and ill-formed commands -/

/-- The check word of the nine bytes 1 to 9 in ASCII, 29B1h, as the generator and start value of R152 give. -/
theorem test_check_word : crc16 ((List.range 9).map fun i => BitVec.ofNat 8 (49 + i)) = 0x29B1#16 := by
  decide +kernel

theorem test_wf_settle_of_unit_0 : (Instr.modeSettleExpiry 0).wf = false := by decide

theorem test_wf_reply_length : (Instr.keyReply 0 (List.replicate 5 0#8)).wf = false := by decide

theorem test_wf_frame :
    (Instr.frameDiscard [210#8, 1#8]).wf = false ∧
    (Instr.frameDiscard (211#8 :: (frameOf 1 1 0 []).drop 1)).wf = false ∧
    (Instr.frameDiscard (frameOf 1 1 0 [] ++ [0#8])).wf = false ∧
    (Instr.frameDiscard (frameOf 1 1 0 (List.replicate 201 0#8))).wf = false := by decide +kernel

theorem test_wf_unknown_kind :
    (Instr.unknownRequestKind 128 (req 0 [])).wf = false ∧
    (Instr.unknownRequestKind 1 (req 0 [])).wf = false ∧
    (Instr.unknownRequestKind 0x50 (req 0 [])).wf = true := by decide

theorem test_wf_body :
    (Instr.unknownRequestKind 0x50 (req 0 (List.replicate 201 0))).wf = false ∧
    (Instr.readStatus (req 0 (List.replicate 201 0))).wf = false ∧
    (Instr.readStatus (req 0 (List.replicate 200 0))).wf = true := by decide +kernel

/-- The request kinds of the well-formedness check are those that have an owner. -/
theorem test_known_kinds : handlers.map Handler.kind = knownKinds := by decide

/-! ### The hypotheses of the statements are met: the step and the laws -/

theorem test_base_state :
    base.systemLaw ∧ base.hears ∧ base.room 300 ∧ base.operating = true ∧ base.settle = none ∧
    base.store.job = none ∧ base.log.law ∧ base.groupLaw ∧ base.forceLaw ∧ base.dayTimeLaw ∧
    base.pending = [] := by
  unfold State.systemLaw State.hears State.room EventLog.law State.groupLaw GroupRun.law
    State.forceLaw State.dayTimeLaw
  decide +kernel

theorem test_base_windows : base.windowLaw := by
  intro w
  have h : ∀ w : Fin 192, base.win[w] = .quiet ∧
      (base.cfg.windows[w].seq = .seqS → base.win[w] = .quiet ∨ base.win[w] = .held) := by
    decide +kernel
  simp [(h w).1]

theorem test_base_horns : base.hornLaw ∧ base.callLaw := by
  have h : ∀ p : Fin 4, base.pan[p].horn = .silent ∧ base.pan[p].calls = ClassSet.empty := by
    decide +kernel
  constructor
  · intro p
    rw [(h p).1, (h p).2]
    rfl
  · intro p c hc
    rw [(h p).2] at hc
    cases c <;> simp [ClassSet.has, ClassSet.empty] at hc

theorem test_base_units : base.changeoverLaw := by
  intro u
  have h : ∀ u : Fin 9, base.un[u].decoded ≠ .changeover ∧ base.un[u].target ≠ some .changeover ∧
      base.un[u].current ≠ .changeover := by decide +kernel
  exact ⟨(h u).1, (h u).2.1, fun hc => absurd hc (h u).2.2⟩

theorem test_base_points : base.chatterLaw := by
  have hr : base.pt.toList.all (fun r => !r.chattering && r.score == 0) = true := by decide +kernel
  have hc : base.cfg.points.toList.all (fun c => decide (1 ≤ c.threshold)) = true := by decide +kernel
  have hs : ∀ k : Fin 12, base.cfg.points[sysPoint k].kind = .system := by decide +kernel
  intro p
  have r := List.all_eq_true.1 hr base.pt[p] (by simp)
  have c := List.all_eq_true.1 hc base.cfg.points[p] (by simp)
  simp only [Bool.and_eq_true, Bool.not_eq_true', beq_iff_eq, decide_eq_true_eq] at r c
  refine ⟨⟨c, by omega, fun h => Bool.noConfusion (h.symm.trans r.1)⟩, fun _ => r.1, fun hp => ?_⟩
  have := hs ⟨p.val - 256, by omega⟩
  have e : sysPoint ⟨p.val - 256, by omega⟩ = p := Fin.ext (by simp [sysPoint]; omega)
  exact e ▸ this

theorem test_base_equations : base.orderLaw := by
  intro k
  have h : ∀ k : Fin 32, (base.cfg.equations[k].a.below k = true ∧ base.cfg.equations[k].b.below k = true) ∧
      base.eqn[k].staged = none := by decide +kernel
  refine ⟨(h k).1, fun e he => ?_⟩
  rw [(h k).2] at he
  cases he

theorem test_base_outputs : base.outputLaw := by
  have h : (∀ (o : Fin 16) (k : Fin 32), base.out[o].demanding.getLsbD k.val = base.demands k o) ∧
      ∀ o : Fin 16, base.out[o].commanded = false ∧ base.out[o].pulse = none ∧
        base.wanted o = false := by decide +kernel
  refine ⟨h.1, fun hop => absurd hop (by decide +kernel), fun o => ?_⟩
  rw [(h.2 o).1, (h.2 o).2.1, (h.2 o).2.2]
  split <;> simp

theorem test_base_roles : base.roleLaw ∧ base.modeLaw := by
  have hs : ∀ k : Fin 12, base.cfg.points[sysPoint k].kind = .system := by decide +kernel
  have hu : ∀ u : Fin 9, base.cfg.units[u].run = (if u = 1 then some 3 else none) ∧
      base.cfg.units[u].pump = none ∧ base.cfg.units[u].cond = none ∧
      base.cfg.units[u].key = (if u = 1 then some 4 else none) := by decide +kernel
  have hk : base.cfg.points[(3 : Fin 268)].kind = .mode ∧ base.cfg.points[(4 : Fin 268)].kind = .key := by
    decide +kernel
  have hm : ∀ u : Fin 9, base.un[u].decoded = base.decode u ∧ base.un[u].current = base.un[u].decoded ∧
      base.un[u].current ≠ .changeover ∧ base.un[u].target = none ∧ base.un[u].settle = none := by
    decide +kernel
  refine ⟨⟨fun p hp => ?_, fun u p => ?_⟩, fun u => ⟨(hm u).1, ?_⟩⟩
  · have e : sysPoint ⟨p.val - 256, by omega⟩ = p := Fin.ext (by simp [sysPoint]; omega)
    exact e ▸ hs ⟨p.val - 256, by omega⟩
  · obtain ⟨hr, hp, hc, hy⟩ := hu u
    rw [hr, hp, hc, hy]
    by_cases h1 : u = 1
    · subst h1
      constructor
      · rintro (h | h | h)
        · cases h
          exact ⟨by decide, hk.1⟩
        · cases h
        · cases h
      · intro h
        cases h
        exact hk.2
    · simp [h1]
  · obtain ⟨-, h1, h2, h3, h4⟩ := hm u
    rw [if_neg h2]
    exact ⟨h1, h3, h4⟩

theorem test_base_qualifiers : base.qualifierLaw := by
  have hd : base.pt.toList.all (fun r => r.debounce.isNone) = true := by decide +kernel
  have hc : (base.cfg.points.toList.take 256).all (fun c => c.kind != .system) = true := by decide +kernel
  refine ⟨fun h => absurd h (by decide +kernel), fun h => absurd h (by decide +kernel), fun p => ⟨fun h => ?_,
    fun hp => ?_, test_base_roles.1.1 p⟩⟩
  · have r := List.all_eq_true.1 hd base.pt[p] (by simp)
    simp_all
  · have r := List.all_eq_true.1 hc base.cfg.points[p]
      (List.mem_take_iff_getElem.2 ⟨p.val, by simp; omega, by simp⟩)
    simpa using r

/-- A state without forces in which the system points alone are ABNORMAL, and active then. -/
theorem active_of_system {s : State} (hf : s.forces = [])
    (h : (s.pt.toList.zip s.cfg.points.toList).zipIdx.all (fun x =>
      let r := x.1.1
      let c := x.1.2
      !r.chattering && (r.active == (r.qual == .abnormal)) &&
        (r.qual == .normal || c.kind == .system && decide (256 ≤ x.2))) = true) : s.activeLaw := by
  intro p
  have hx := List.all_eq_true.1 h ((s.pt[p], s.cfg.points[p]), p.val)
    (List.mk_mem_zipIdx_iff_getElem?.2 (by simp))
  simp only [Bool.and_eq_true, Bool.or_eq_true, Bool.not_eq_true', beq_iff_eq, decide_eq_true_eq] at hx
  obtain ⟨⟨hc, ha⟩, hq⟩ := hx
  have he : s.effective p = s.pt[p].qual := by
    simp [State.effective, State.forcedValue, hf]
  simp only [he, hf, hc, ha, beq_iff_eq]
  constructor
  · intro hab
    rw [hab] at hq
    rcases hq with hq | hq
    · cases hq
    · exact ⟨.inr hq.1, .inl hab, .inr (.inl hq.2)⟩
  · rintro ⟨-, h | h, -⟩
    · exact h
    · simp at h

theorem test_base_active : base.activeLaw := active_of_system (by decide +kernel) (by decide +kernel)

theorem test_base_timing : base.timingLaw := by
  have h : ∀ k : Fin 32, base.eqn[k].state = .unused ∨ base.eqn[k].state = .idle ∧
      base.un[base.cfg.equations[k].unit].blocked = false := by decide +kernel
  have ho : base.operating = true := by decide +kernel
  intro k
  rcases h k with hk | ⟨hk, hb⟩
  · refine ⟨fun h => absurd (ho.symm.trans h) (by decide), ?_, ?_, ?_⟩ <;> rw [hk] <;> intro h <;> cases h
  · refine ⟨fun h => absurd (ho.symm.trans h) (by decide), fun _ => hb, ?_, ?_⟩ <;> rw [hk] <;>
      intro h <;> cases h

/-- A waiting command, and a clock unit that ends the day. -/
theorem test_step_premises :
    (after (step { base with pending := [.minutePulse] })).pending = [] ∧
    base.pending = [] ∧ (after (step base)).now = 1 ∧
    (after (step (base.setClock ⟨⟨65535, 863999999⟩, .free, none⟩))).clock.stamp = ⟨0, 0⟩ := by
  decide +kernel

/-- The frames: a command that changes none of the kinds of state, one for each exclusion, and one for
each clause that names another point or panel. -/
theorem test_frame_premises :
    (let c := Instr.chimeEnd 0
     c.setsClock = false ∧ c.setsStore = false ∧ c.setsService = false ∧ c.drawsFree = false ∧
     c.starts = false ∧ c.setsLink = false ∧ c.puts = false ∧ c.setsPoints = false ∧
     c.setsForces = false ∧ c.setsDecay = false ∧ c.setsUnits = false ∧ c.setsManual = false ∧
     c.setsFaults = false ∧ c.removesRecords = false ∧ c.clearsNews = false) ∧
    (Instr.debounceExpiry 0).setsPanels = false ∧
    (run (.contactLevelChange 0 true) base).pt[(0 : Fin 268)].raw = true ∧
    (run (.contactLevelChange 0 true) base).pt[(255 : Fin 268)] = base.pt[(255 : Fin 268)] ∧
    (run (.keyReplyMiss 0) base).pan[(3 : Fin 4)] = base.pan[(3 : Fin 4)] ∧
    (base.log.recs[0]?.map fun r => r.body.isGap) = some false := by
  decide +kernel

theorem test_frame_is_read :
    judgeFrame 31 (frameOf 31 127 511#16 (List.replicate 200 7#8)) =
      .request 127 ⟨511#16, List.replicate 200 7#8⟩ ∧
    judgeFrame 1 (frameOf 31 0 0 []) = .dropped ∧ judgeFrame 1 (frameOf 1 128 0 []) = .dropped ∧
    judgeFrame 1 (frameOf 0 0x28 0 []) = .broadcastTime ⟨0, []⟩ ∧
    judgeFrame 1 (frameOf 0 1 0 []) = .broadcast ∧ judgeFrame 0 (frameOf 0 1 0 []) = .dropped ∧
    ((Instr.readStatus (req 0 [])).request.map fun x => x.1.kind) = some 1 := by
  decide +kernel

/-- A frame with a wrong check word is dropped, at its own station and as a broadcast (R154 step 1). -/
theorem test_frame_check_word :
    (let f := frameOf 12 0x08 0 []
     f.length = 8 + rd8 f 5 ∧ judgeFrame 12 (f.take 7 ++ [~~~ f.getD 7 0#8]) = .dropped) ∧
    (let f := frameOf 0 0x28 0 [1#8]
     f.length = 8 + rd8 f 5 ∧ judgeFrame 12 (f.set 6 2#8) = .dropped) ∧
    judgeFrame 12 (frameOf 12 0x08 0 []) = .request 0x08 ⟨0, []⟩ := by
  decide +kernel

/-! ### The hypotheses are met: points, units, groups -/

/-- Point 0 with its debounce running since 0. -/
def closing : State := run (.contactLevelChange 0 true) base

/-- One state for each row: no change of level; not qualified; at rest and equal; starting; at once;
running. -/
theorem test_contact_premises :
    base.systemLaw ∧ base.pt[(0 : Fin 268)].raw = false ∧
    ({ base with service := .unconfigured } : State).operating = false ∧
    base.cfg.points[(255 : Fin 268)].kind.qualified = false ∧
    (let s := base.modPt 0 fun r => { r with qual := .abnormal }
     (run (.contactLevelChange 0 true) s).pt[(0 : Fin 268)].debounce = none) ∧
    closing.pt[(0 : Fin 268)].debounce = some ⟨⟨0, 0⟩, 0⟩ ∧
    base.cfg.points[(1 : Fin 268)].debounce = 0 ∧
    (run (.contactLevelChange 1 true) base).pt[(1 : Fin 268)].qual = .abnormal ∧ closing.systemLaw ∧
    (run (.contactLevelChange 0 false) closing).pt[(0 : Fin 268)].debounce = none := by
  unfold State.systemLaw
  decide +kernel

/-- The debounce of 8 ms is not over after 79 clock units and is over after 80 (R6). -/
theorem test_debounce_premises :
    (later 79 closing).debounceDue 0 = none ∧ (later 80 closing).debounceDue 0 = some ⟨0, 0⟩ ∧
    closing.room 1 ∧ closing.pt[(0 : Fin 268)].chattering = false ∧
    (run (.debounceExpiry 0) (later 80 closing)).pt[(0 : Fin 268)].score = 20 := by
  unfold State.room
  decide +kernel

/-- Point 0 CHATTERING with its score one above the release level. -/
def chattery : State := base.modPt 0 fun r => { r with chattering := true, score := 31 }

theorem test_decay_premises :
    (later 999 chattery).decayDue = false ∧ (later 1000 chattery).decayDue = true ∧
    chattery.cfg.points[(0 : Fin 268)].kind.qualified = true ∧
    (chatterCheck 0 ((later 1000 chattery).modPt 0 fun r => { r with score := 30 })).pt[(0 : Fin 268)].chattering =
      false := by
  decide +kernel

/-- Point 0 forced to ABNORMAL for 1 minute at elapsed time 0. -/
def forced : State := run (.force (req 0 [0, 0, 1, 0, 0])) base

theorem test_force_expiry_premises :
    forced.forces = [⟨0, .abnormal, ⟨0, 0⟩, 0, 1⟩] ∧ (later 599999 forced).forceDue 0 = false ∧
    (later 600000 forced).forceDue 0 = true ∧ forced.forcedValue 0 = some .abnormal ∧ forced.room 1 ∧
    (run (.forceExpiry 0) (later 600000 forced)).forces = [] := by
  unfold State.room
  decide +kernel

/-- Unit 1 in CHANGEOVER since 0. -/
def changing : State :=
  base.modUn 1 fun r =>
    { r with decoded := .generate, current := .changeover, target := some .generate, settle := some 0 }

theorem test_settle_premises :
    (later 9999 changing).settleDue 1 = false ∧ (later 10000 changing).settleDue 1 = true ∧
    changing.room 1 ∧
    (run (.modeSettleExpiry 1) (later 10000 changing)).un[(1 : Fin 9)].current = .generate := by
  unfold State.room
  decide +kernel

/-- G0 settling since 0 on `points`, stamped at day-time 5. -/
def grouped (st : GroupState) (points : List (Fin 268)) : State :=
  base.modGrp 0 fun r =>
    { r with state := st, firstOut := points, stamp := some ⟨0, 5⟩, timer := some ⟨0, 100⟩ }

theorem test_group_premises :
    (grouped .settling [0]).systemLaw ∧ (grouped .settling [0]).room 1 ∧
    (later 99 (grouped .settling [0])).groupDue 0 = false ∧
    (later 100 (grouped .settling [0])).groupDue 0 = true ∧
    (captureEvent 1 0 ⟨0, 5⟩ base).grp[(1 : Fin 16)].state = .captured ∧
    (captureEvent 0 0 ⟨0, 5⟩ base).grp[(0 : Fin 16)].state = .settling ∧
    (captureEvent 0 1 ⟨0, 4⟩ (grouped .settling [0])).grp[(0 : Fin 16)].firstOut = [1] ∧
    (captureEvent 0 1 ⟨0, 6⟩ (grouped .settling [0])).grp[(0 : Fin 16)].subsequent = 1 ∧
    (captureEvent 0 0 ⟨0, 5⟩ (grouped .settling [0])).grp[(0 : Fin 16)].subsequent = 1 ∧
    (captureEvent 0 3 ⟨0, 5⟩ (grouped .settling [0, 1, 2])).grp[(0 : Fin 16)].firstOut = [0, 1, 2, 3] ∧
    (captureEvent 0 4 ⟨0, 5⟩ (grouped .settling [0, 1, 2, 3])).grp[(0 : Fin 16)].overfull = true ∧
    (captureEvent 0 4 ⟨0, 4⟩ (grouped .captured [0])).grp[(0 : Fin 16)].subsequent = 1 := by
  unfold State.systemLaw State.room
  decide +kernel

/-! ### The hypotheses are met: panels -/

/-- P1 in a link state with misses and periods counted, its wait begun at 0. -/
def linked (l : LinkState) (misses lostFor : Nat) : State :=
  (sysFollow false 0 (base.modPan 0 fun r =>
    { r with link := l, misses := misses, lostFor := lostFor, exchange := some 0 }))

theorem test_period_premises :
    base.periodDue = true ∧
    ({ base with frameClock := ⟨5, true, 0⟩ } : State).periodDue = false ∧
    (later 399 { base with frameClock := ⟨5, true, 0⟩ }).periodDue = false ∧
    (later 400 { base with frameClock := ⟨255, true, 0⟩ }).periodDue = true ∧
    base.pan[(1 : Fin 4)].link = .disabled ∧ base.pan[(0 : Fin 4)].link = .up ∧
    (linked .lost 0 23).pan[(0 : Fin 4)].lostFor + 1 < 25 ∧
    25 ≤ (linked .lost 0 24).pan[(0 : Fin 4)].lostFor + 1 := by
  decide +kernel

/-- A KEY reply with all keys held and one press counted on each key. -/
def pressed : List Byte := withCheck [0x5A#8, 0x0F#8, 0x11#8, 0x01#8]

/-- P1 waiting, W0 in ALERT and G0 CAPTURED on a point that is not active. -/
def calling : State :=
  (((linked .up 0 0).setWin 0 .alert).modPan 0 fun r =>
    { r with calls := ⟨false, true, false, false⟩, horn := .cadence .c2 0 }).modGrp 0 fun r =>
      { r with state := .captured, firstOut := [0], stamp := some ⟨0, 5⟩ }

theorem test_press_premises :
    calling.systemLaw ∧ calling.room 5 ∧ (later 100 calling).waiting 0 = true ∧
    (later 101 calling).waiting 0 = false ∧ goodReply pressed = true ∧
    calling.pan[(0 : Fin 4)].link = .up ∧ (replyCounters pressed) = ⟨1, 1, 1⟩ ∧
    calling.pan[(0 : Fin 4)].seen = some ⟨0, 0, 0⟩ ∧ calling.mayRearm 0 = true ∧
    calling.cfg.groups[(0 : Fin 16)].home = some 0 ∧
    calling.cfg.panels[(0 : Fin 4)].positions.Nodup ∧
    (calling.cfg.panels[(0 : Fin 4)].positions.countP fun w =>
      calling.win[w] == .alert && calling.cfg.windows[w].seq != .seqS) = 1 := by
  unfold State.systemLaw State.room
  decide +kernel

/-- ACK takes W0, whose condition is false, to RETURN, and RESET takes it to QUIET and re-arms G0 (R86). -/
theorem test_presses_in_order :
    (run (.keyReply 0 pressed) calling).win[(0 : Fin 192)] = .quiet ∧
    (run (.keyReply 0 pressed) calling).grp[(0 : Fin 16)].state = .armed ∧
    (run (.keyReply 0 pressed) calling).log.recs.length = base.log.recs.length + 4 := by
  decide +kernel

theorem test_reply_link_premises :
    (linked .up 0 0).systemLaw ∧ (linked .starting 0 0).systemLaw ∧ (linked .lost 0 0).systemLaw ∧
    (linked .starting 0 0).waiting 0 = true ∧ base.waiting 0 = false ∧
    goodReply [0x5A#8, 0#8, 0#8, 0#8, 0#8, 0#8] = false ∧ (linked .starting 0 0).settle = none ∧
    ({ linked .starting 0 0 with settle := some 0 } : State).settle.isSome = true ∧
    (linked .starting 0 0).room 1 ∧ (linked .lost 0 0).room 1 ∧
    (linked .starting 0 0).pan[(0 : Fin 4)].keyTest = false ∧ (replyKeys pressed).getLsbD 3 = true ∧
    (run (.keyReply 0 pressed) (linked .lost 0 0)).pan[(0 : Fin 4)].link = .starting := by
  unfold State.systemLaw State.room
  decide +kernel

/-- Six bytes, the lead 5Ah and the check word make a reply good; its counters and key levels (R84, R176). -/
theorem test_reply_fields :
    goodReply (pressed ++ [0#8]) = false ∧ goodReply (withCheck [0x5B#8, 0#8, 0#8, 0#8]) = false ∧
    goodReply (pressed.set 5 0#8) = false ∧
    (let bs := withCheck [0x5A#8, 0xF5#8, 0xC3#8, 0xFA#8]
     goodReply bs = true ∧ replyKeys bs = 5#4 ∧ replyCounters bs = ⟨3, 12, 10⟩) := by
  decide +kernel

theorem test_miss_premises :
    (linked .starting 0 0).systemLaw ∧ (linked .up 1 0).systemLaw ∧ (linked .up 2 0).systemLaw ∧
    (later 99 (linked .up 1 0)).waitOver 0 = false ∧ (later 100 (linked .up 1 0)).waitOver 0 = true ∧
    (linked .up 2 0).room 1 ∧
    (run (.keyReplyMiss 0) (later 100 (linked .up 1 0))).pan[(0 : Fin 4)].misses = 2 ∧
    (run (.keyReplyMiss 0) (later 100 (linked .up 2 0))).pan[(0 : Fin 4)].link = .lost := by
  unfold State.systemLaw State.room
  decide +kernel

/-! ### The hypotheses are met: equations, outputs, the clock -/

/-- E2 timing since 0, its delay 60000 ms; no higher equation names it. -/
def timing : State := base.modEqn 2 fun r => { r with state := .timing, timing := some 0, cond := true }

theorem test_delay_premises :
    (later 599999 timing).delayDue 2 = false ∧ (later 600000 timing).delayDue 2 = true ∧
    timing.systemLaw ∧ timing.room 1 ∧
    (∀ j : Fin 32, 2 < j → (timing.cfg.equations[j].a.names (.equation 2) ||
      timing.cfg.equations[j].b.names (.equation 2)) = false) ∧
    timing.cfg.equations[(2 : Fin 32)].outs.getLsbD 0 = true ∧
    timing.cfg.equations[(2 : Fin 32)].outs.getLsbD 2 = false ∧
    timing.out[(0 : Fin 16)].demanded = false ∧ timing.out[(0 : Fin 16)].pulse = none ∧
    (run (.delayExpiry 2) (later 600000 timing)).out[(1 : Fin 16)].pulse = some ⟨600000, 100⟩ := by
  unfold State.systemLaw State.room
  decide +kernel

theorem test_end_premises :
    (let s := base.modPan 0 fun r => { r with test := some ⟨0, 63, 0, 60⟩ }
     (later 599999 s).testDue 0 = false ∧ (later 600000 s).testDue 0 = true) ∧
    base.pan[(0 : Fin 4)].test = none ∧ base.pan[(0 : Fin 4)].horn = .silent ∧
    (let s := base.modPan 0 fun r => { r with horn := .chime 0 }
     (later 9999 s).chimeDue 0 = false ∧ (later 10000 s).chimeDue 0 = true) ∧
    (let s := base.modOut 1 fun r => { r with pulse := some ⟨0, 100⟩, commanded := true }
     (later 99 s).pulseDue 1 = false ∧ (later 100 s).pulseDue 1 = true ∧
     (run (.pulseExpiry 1) (later 100 s)).out[(1 : Fin 16)].verify = some ⟨100, 50⟩) := by
  decide +kernel

/-- O0 verifying since 0 with a readback level and a fault flag. -/
def verifying (rb fault : Bool) : State :=
  sysFollow false 6 (base.modOut 0 fun r => { r with readback := rb, fault := fault, verify := some ⟨0, 500⟩ })

theorem test_verify_premises :
    (verifying true false).systemLaw ∧ (verifying true true).systemLaw ∧ (verifying true false).room 1 ∧
    (later 499 (verifying true false)).verifyDue 0 = false ∧
    (later 500 (verifying true false)).verifyDue 0 = true ∧
    (later 500 (verifying false false)).verifyDue 0 = true ∧
    base.cfg.outputs[(0 : Fin 16)].readback = true ∧ base.cfg.outputs[(2 : Fin 16)].readback = false ∧
    base.out[(0 : Fin 16)].verify = none ∧
    (run (.readbackChange 0 true) base).out[(0 : Fin 16)].fault = true ∧
    (run (.verifyExpiry 0) (later 500 (verifying true false))).news[(1 : Fin 9)].fault = true := by
  unfold State.systemLaw State.room
  decide +kernel

/-- The clock at a time and in a state. -/
def clocked (day dayTime : Nat) (c : ClockState) : State :=
  sysFollow false 4 (base.setClock ⟨⟨BitVec.ofNat 16 day, dayTime⟩, c, none⟩)

/-- The four worked cases of 08 section 8.4.1, and the boundaries of the sync window. -/
theorem test_pulse_premises :
    base.systemLaw ∧ base.clock.state = .unset ∧ (clocked 0 0 .free).systemLaw ∧
    (clocked 0 0 .free).room 1 ∧ base.cfg.settings.minutePulse = true ∧
    State.reset.cfg.settings.minutePulse = false ∧
    (run .minutePulse (clocked 9 433199650 .free)).clock = ⟨⟨9, 433200000⟩, .locked, some 0⟩ ∧
    (run .minutePulse (clocked 9 150 .locked)).clock = ⟨⟨9, 0⟩, .locked, some 0⟩ ∧
    (run .minutePulse (clocked 65535 863999800 .free)).clock = ⟨⟨0, 0⟩, .locked, some 0⟩ ∧
    (run .minutePulse (clocked 9 12300000 .locked)).clock = ⟨⟨9, 12300000⟩, .free, none⟩ ∧
    (run .minutePulse (clocked 9 1000 .free)).clock.state = .locked ∧
    (run .minutePulse (clocked 9 1001 .free)).clock.state = .free := by
  unfold State.systemLaw State.room
  decide +kernel

theorem test_watch_premises :
    (let s := clocked 0 0 .locked
     let s := s.setClock { s.clock with watch := some 0 }
     (later 1499999 s).watchDue = false ∧ (later 1500000 s).watchDue = true ∧ s.room 1 ∧
     s.cfg.settings.minutePulse = true) ∧
    (let s := base.setLink { base.link with silence := some 0 }
     (later 9999 s).silenceDue = false ∧ (later 10000 s).silenceDue = true ∧ s.systemLaw ∧
     s.link.silent = false ∧ s.room 1) := by
  unfold State.systemLaw State.room
  decide +kernel

/-! ### The hypotheses are met: the station line -/

/-- The base hall at elapsed time 100 with its receiver in a state. -/
def receiver (r : Receiver) : State := later 100 (base.setLink { base.link with receiver := r })

/-- The hall sends this reply. -/
def sends (s : State) (kind : Nat) (sel : Nat) (code : ResultCode) (data : List Nat) : Bool :=
  s.link.receiver == .replying (frameOf 12 (kind + 128) (BitVec.ofNat 16 sel)
    (byteOf code.code :: data.map byteOf))

/-- A frame of seven bytes received of the eight of a READ_CLOCK. -/
def almost : List Byte := (frameOf 12 0x08 0 []).take 7

theorem test_byte_premises :
    (run (.stationLinkByte 210#8) base).link.receiver = .receiving [210#8] 0 ∧
    (run (.stationLinkByte 7#8) base).link.receiver = .hunt ∧
    (run (.stationLinkByte 210#8) (receiver (.replying []))).link.receiver = .replying [] ∧
    (run (.stationLinkByte 210#8) (receiver (.skip 70))).link.receiver = .skip 100 ∧
    (run (.stationLinkByte 210#8) (receiver (.skip 69))).link.receiver = .receiving [210#8] 100 ∧
    (run .interByteSilence (receiver (.skip 70))).link.receiver = .skip 70 ∧
    (run .interByteSilence (receiver (.receiving almost 69))).link.receiver = .hunt ∧
    (run (.stationLinkByte 1#8) (receiver (.receiving [210#8] 70))).link.receiver =
      .receiving [210#8, 1#8] 100 ∧
    (run (.stationLinkByte 201#8) (receiver (.receiving (almost.take 5) 70))).link.receiver =
      .skip 100 ∧
    (run (.stationLinkByte 200#8) (receiver (.receiving (almost.take 5) 70))).link.receiver =
      .receiving (almost.take 5 ++ [200#8]) 100 ∧
    (run (.stationLinkByte 0#8) (receiver (.receiving (almost.take 6) 70))).link.receiver =
      .receiving (almost.take 6 ++ [0#8]) 100 := by
  decide +kernel

/-- The last byte of a frame has it taken, and the reply of the worked frame layout is sent. -/
theorem test_frame_is_taken :
    (let f := frameOf 12 0x08 0 []
     sends (run (.stationLinkByte (f.getD 7 0#8)) (receiver (.receiving (f.take 7) 70)))
      0x08 0 .ok [0, 0, 0, 0, 0, 0, 0, 0, 1, 232, 3]) = true := by
  decide +kernel

/-- The bytes of a whole frame and its command send one reply: a request, an unknown kind (R155; log entry 3);
a frame of another station sends none. -/
theorem test_frame_acts_as_command :
    (takeFrame (frameOf 12 0x06 0 [1#8]) base).link = (run (.readOutputs ⟨0, [1#8]⟩) base).link ∧
    (takeFrame (frameOf 12 0x7F 0 []) base).link = (run (.unknownRequestKind 0x7F ⟨0, []⟩) base).link ∧
    (takeFrame (frameOf 13 0x7F 0 []) base).link = base.link := by
  decide +kernel

theorem test_discard_premises :
    frameWf (frameOf 31 1 0 []) = true ∧ judgeFrame 12 (frameOf 31 1 0 []) = .dropped ∧
    judgeFrame 12 (frameOf 0 1 0 []) = .broadcast ∧ frameWf [210#8] = false ∧
    (receiver (.replying [])).listening = false ∧
    judgeFrame 12 (frameOf 12 1 0 []) = .request 1 ⟨0, []⟩ ∧
    judgeFrame 12 (frameOf 0 0x28 0 []) = .broadcastTime ⟨0, []⟩ ∧
    base.listening = true ∧ base.systemLaw ∧ base.link.silent = false ∧ base.link.station = 12#5 ∧
    (run (.frameDiscard (frameOf 0 1 0 [])) (later 5 base)).link.silence = some 5 ∧
    (run .replySent (receiver (.replying []))).link.receiver = .hunt := by
  unfold State.systemLaw
  decide +kernel

/-- The hall in a settle, and the hall while a SAVE runs. -/
def settling : State := { base with settle := some 0 }

def storing (now : Nat) : State :=
  later now (base.setStore { base.store with job := some ⟨hall, .commissioning, false, 0⟩ })

/-- One request for each check, in the order of R156; a further selection flag comes back as 0 (R173). -/
theorem test_check_premises :
    settling.hears ∧ settling.systemLaw ∧ (storing 0).hears ∧ (storing 0).systemLaw ∧
    sends (run (.unknownRequestKind 0x50 (req 0 [])) base) 0x50 0 .kind [] ∧
    sends (run (.clearAll (req 512 [1])) settling) 0x42 0 .length [] ∧
    sends (run (.clearAll (req 512 [])) settling) 0x42 0 .select [] ∧
    sends (run (.clearAll (req 511 [])) settling) 0x42 511 .state [] ∧
    sends (run (.putSettings (req 0 [128, 0, 0, 0, 0, 0, 0, 0, 0, 0])) (storing 0)) 0x3E 0 .busy [] ∧
    sends (run (.putSettings (req 0 [128, 0, 0, 0, 0, 0, 0, 0, 0, 0])) base) 0x3E 0 .range [] := by
  unfold State.systemLaw State.hears
  decide +kernel

/-- The first and the last length of each kind of body, and when a request is permitted (11 section 11.2,
R156, R166). -/
theorem test_lengths_and_gates :
    [3, 4, 68, 69].map handlePutPanel.lenOk = [false, true, true, false] ∧
    [0, 1, 2].map handleReadEvents.lenOk = [false, true, false] ∧
    [State.reset, base, settling, { base with service := .inService }].map (fun s =>
      (handlePutPoint.gate s, handleSave.gate s, handleTripReset.gate s, handleOutputSet.gate s)) =
      [(true, true, false, false), (true, true, true, true), (true, false, false, false),
       (true, true, true, false)] ∧
    (handleSave.put = true ∧ handlePutPoint.put = true ∧ handleForce.put = false) := by
  decide +kernel

/-- No request has the kind code 50h. -/
theorem test_unknown_kind :
    (0x50#8 : Byte).toNat < 128 ∧ ∀ (c : Instr) (x : Asked), c.asked = some x → x.kind ≠ (0x50#8).toNat := by
  refine ⟨by decide, fun c x h => ?_⟩
  cases c with
  | setTime b r => cases b <;> simp only [Instr.asked, Option.some.injEq, reduceCtorEq] at h; subst h; decide
  | _ => first
    | (simp only [Instr.asked, reduceCtorEq] at h; done)
    | (simp only [Instr.asked, Option.some.injEq] at h; subst h; decide)

/-! ### The hypotheses are met: reads -/

/-- The last item and one too many, for each read of a range; unit 1 alone read. -/
theorem test_read_premises :
    sends (run (.readPoints (req 0 [11, 1, 2])) base) 0x02 0 .range [] ∧
    (run (.readPoints (req 0 [11, 1, 1])) base).link.receiver =
      (sendReply 0x02 0 .ok ([11#8, 1#8, 1#8] ++ base.pointEntry 267) base).link.receiver ∧
    sends (run (.readWindows (req 0 [191, 2])) base) 0x03 0 .range [] ∧
    sends (run (.readWindows (req 0 [191, 1])) base) 0x03 0 .ok [191, 1, 12, 0, 0, 0] ∧
    sends (run (.readGroups (req 0 [15, 0])) base) 0x04 0 .range [] ∧
    sends (run (.readEquations (req 0 [31, 1])) base) 0x05 0 .ok
      [31, 1, 0, 0, 0, 0, 0, 0, 0, 0, 0, 0, 0, 0, 0, 0] ∧
    (base.cfg.contributors 0).length ≤ 8 ∧
    (grouped .captured [0, 1, 2, 3]).grp[(0 : Fin 16)].firstOut.length ≤ 4 ∧
    (req 511 [11, 1, 2]).sel.toNat < 512 := by
  decide +kernel

/-- Each table's last number and the first beyond it. -/
theorem test_get_premises :
    rd16 (req 0 [11, 1]).body 0 = (267 : Fin 268).val ∧ rd16 (req 0 [12, 1]).body 0 = 268 ∧
    sends (run (.getPoint (req 0 [12, 1])) base) 0x31 0 .range [] ∧
    sends (run (.getUnit (req 0 [8])) base) 0x33 0 .ok
      [8, 255, 255, 255, 255, 255, 255, 0, 0, 255, 255] ∧
    sends (run (.getUnit (req 0 [9])) base) 0x33 0 .range [] ∧
    sends (run (.getWindow (req 0 [191])) base) 0x35 0 .ok [191, 0, 4, 0, 0] ∧
    sends (run (.getWindow (req 0 [192])) base) 0x35 0 .range [] ∧
    sends (run (.getPanel (req 0 [0])) base) 0x37 0 .range [] ∧
    sends (run (.getPanel (req 0 [5])) base) 0x37 0 .range [] ∧
    sends (run (.getPanel (req 0 [4])) base) 0x37 0 .ok [0, 8, 0, 0, 0, 0, 8, 0, 0, 0, 0, 0, 0, 0, 0] ∧
    sends (run (.getGroup (req 0 [15])) base) 0x39 0 .ok [15, 0, 0] ∧
    sends (run (.getGroup (req 0 [16])) base) 0x39 0 .range [] ∧
    sends (run (.getEquation (req 0 [32])) base) 0x3B 0 .range [] ∧
    sends (run (.getOutput (req 0 [15])) base) 0x3D 0 .ok [15, 0, 244, 1, 50, 0, 0] ∧
    sends (run (.getOutput (req 0 [16])) base) 0x3D 0 .range [] ∧
    sends (run (.getSettings (req 0 [])) base) 0x3F 0 .ok [100, 0, 1, 1, 1, 232, 3, 0, 0] := by
  decide +kernel

/-- Unit 1 with ALERT and FAULT news. -/
def newsy : State := base.modNews 1 fun n => { n with alert := true, fault := true }

theorem test_news_premises :
    newsy.hears ∧ newsy.systemLaw ∧ newsy.settle = none ∧
    newsy.cfg.settings.clearMode = .clearOnRead ∧
    (run (.readStatus (req 2 [])) newsy).news[(1 : Fin 9)].alert = false ∧
    (run (.readStatus (req 0 [])) newsy).news[(1 : Fin 9)].alert = true ∧
    sends (run (.clearNews (req 2 [1])) newsy) 0x24 2 .ok [8] ∧
    sends (run (.clearNews (req 2 [15])) newsy) 0x24 2 .ok [0] ∧
    sends (run (.clearNews (req 2 [16])) newsy) 0x24 2 .range [] := by
  unfold State.systemLaw State.hears
  decide +kernel

/-- A full log: 1023 records and a GAP record, point 261 ABNORMAL. -/
def fullLog : State :=
  { base.modPt 261 (fun r => { r with qual := .abnormal, active := true }) with
    log :=
      { recs := (List.range 1023).map (fun i =>
          ⟨BitVec.ofNat 16 i, ⟨0, 0⟩, .service .commissioning .request⟩) ++
          [⟨1023, ⟨0, 0⟩, .gap 1 ⟨0, 0⟩ ⟨0, 0⟩⟩]
        next := 1024 } }

/-- `s` with a log of `n` records, none a GAP record. -/
def holding (n : Nat) (s : State) : State :=
  { s with
    log :=
      { recs := (List.range n).map fun i =>
          ⟨BitVec.ofNat 16 i, ⟨0, 0⟩, .service .commissioning .request⟩
        next := BitVec.ofNat 16 n } }

/-- A record stored with room, one that fills the log, one that is counted, and the handing on of point 261
(R147, R148). -/
theorem test_filling_premises :
    let b : RecordBody := .tripEnd 3 .reset
    (holding 1022 base).log.recs.length ≤ 1022 ∧
    ((holding 1022 base).log.law ∧ (holding 1023 base).log.law) ∧
    ((holding 1022 base).systemLaw ∧ (holding 1023 base).systemLaw) ∧
    (holding 1023 base).log.newestIsGap = false ∧ fullLog.log.newestIsGap = true ∧
    ((holding 1022 base).write b).pt[(261 : Fin 268)].qual = .normal ∧
    ((holding 1023 base).write b).pt[(261 : Fin 268)].qual = .abnormal ∧
    (((holding 1023 base).write b).log.recs[1023]?.map LogRecord.body) =
      some (.gap 2 ⟨0, 0⟩ ⟨0, 0⟩) ∧
    (logged (fun s => s.write b) (holding 1023 base)).pt[(261 : Fin 268)].active = true := by
  unfold State.systemLaw EventLog.law
  decide +kernel

/-- Fifteen records of 13 bytes fill 195 bytes, and a longer one ends them (R150); a GAP record counts up to
65535 (R147). -/
theorem test_fitting_and_losses :
    (let r (b : RecordBody) : LogRecord := ⟨0, ⟨0, 0⟩, b⟩
     (fitting 195 (List.replicate 20 (r (.chatterOn 0 1)))).length = 15 ∧
     (fitting 195 (List.replicate 15 (r (.mode 0 .common .common)))).length = 15 ∧
     fitting 25 [r (.tripEnd 0 .reset), r (.chatterOff 0 .normal 0), r (.tripEnd 1 .reset)] =
       [r (.tripEnd 0 .reset)]) ∧
    (let l (n : Nat) (last : TimeStamp) : EventLog :=
      ⟨[⟨7, ⟨0, 1⟩, .service .commissioning .request⟩, ⟨8, ⟨0, 2⟩, .gap n ⟨0, 2⟩ last⟩], 9⟩
     (l 65534 ⟨0, 2⟩).countLoss ⟨1, 3⟩ = l 65535 ⟨1, 3⟩ ∧
     (l 65535 ⟨0, 2⟩).countLoss ⟨1, 3⟩ = l 65535 ⟨1, 3⟩) := by
  decide +kernel

/-- W1 is the window of point 261, and the log holds 1023 records. -/
def brimming : State :=
  holding 1023 (calling.setCfg (pointAt 261
    { calling.cfg.points[(261 : Fin 268)] with window := some 1 } calling.cfg))

/-- ACK and SILENCE in one reply: the record of ACK fills the log, so that point 261 goes ABNORMAL and calls
W1, and SILENCE, taken after it, silences that call and has its own record counted (R86, R148). -/
theorem test_silence_after_filling :
    brimming.systemLaw ∧
    (let t := run (.keyReply 0 (withCheck [0x5A#8, 0#8, 0x11#8, 0#8])) brimming
     t.win[(1 : Fin 192)] = .alert ∧ t.pan[(0 : Fin 4)].calls = ClassSet.empty ∧
     t.pan[(0 : Fin 4)].horn = .silent ∧
     (t.log.recs[1023]?.map LogRecord.body) = some (.gap 3 ⟨0, 0⟩ ⟨0, 0⟩)) ∧
    (let t := run (.keyReply 0 (withCheck [0x5A#8, 0#8, 0x01#8, 0#8])) brimming
     t.pan[(0 : Fin 4)].horn = .cadence .c3 0 ∧
     (t.log.recs[1023]?.map LogRecord.body) = some (.gap 2 ⟨0, 0⟩ ⟨0, 0⟩)) := by
  unfold State.systemLaw
  decide +kernel

/-- W0 in RETURN, and G0 CAPTURED on point 261, a member of it that is not active. -/
def resetting : State :=
  holding 1023 (((calling.setCfg (pointAt 261
    { calling.cfg.points[(261 : Fin 268)] with group := some 0 } calling.cfg)).setWin 0 .returned).modGrp 0 fun r =>
      { r with firstOut := [261] })

/-- The RESET record of a press fills the log: the flags tested are those that stood when the press was taken,
so G0 is re-armed, and the capture event of point 261 finds it ARMED (R75, R89). -/
theorem test_reset_after_filling :
    let bs := withCheck [0x5A#8, 0#8, 0#8, 1#8]
    resetting.systemLaw ∧ resetting.waiting 0 = true ∧ goodReply bs = true ∧
    resetting.pan[(0 : Fin 4)].link = .up ∧ resetting.pan[(0 : Fin 4)].seen = some ⟨0, 0, 0⟩ ∧
    (replyCounters bs) = ⟨0, 0, 1⟩ ∧ resetting.mayRearm 0 = true ∧
    resetting.cfg.groups[(0 : Fin 16)].home = some 0 ∧ (0 : Fin 192) ∈ resetting.cfg.panels[(0 : Fin 4)].positions ∧
    resetting.log.recs.length = 1023 ∧ resetting.log.newestIsGap = false ∧
    resetting.pt[(261 : Fin 268)].active = false ∧ resetting.forced 261 = false ∧
    (let t := run (.keyReply 0 bs) resetting
     t.win[(0 : Fin 192)] = .quiet ∧ t.pt[(261 : Fin 268)].active = true ∧
     t.grp[(0 : Fin 16)] = (resetting.grp[(0 : Fin 16)].rearmed.firstEvent 261 ⟨0, 0⟩ 10 0) ∧
     t.grp[(0 : Fin 16)].state = .settling ∧ t.grp[(1 : Fin 16)] = resetting.grp[(1 : Fin 16)] ∧
     (t.log.recs[1023]?.map LogRecord.body) = some (.gap 3 ⟨0, 0⟩ ⟨0, 0⟩)) := by
  unfold State.systemLaw
  decide +kernel

/-- A release from a full log ends the full state: the record of point 261 follows (R150). -/
theorem test_release_premises :
    base.log.full = false ∧ fullLog.hears ∧ fullLog.systemLaw ∧ fullLog.log.full = true ∧
    fullLog.log.law ∧
    (run (.readEvents (req 0 [255])) base).log.recs.length = 0 ∧
    (let t := run (.readEvents (req 0 [2])) fullLog
     t.pt[(261 : Fin 268)].qual = .normal ∧ t.log.recs.length = 1023) := by
  unfold State.systemLaw State.hears EventLog.law
  decide +kernel

/-! ### The hypotheses are met: operator, trip, force, output and clock requests -/

theorem test_operator_premises :
    calling.hears ∧ calling.systemLaw ∧ calling.room 1 ∧ calling.settle = none ∧
    sends (run (.ack (req 0 [0, 191])) calling) 0x10 0 .ok [1, 0] ∧
    sends (run (.ack (req 0 [0, 192])) calling) 0x10 0 .range [] ∧
    sends (run (.resetWindows (req 0 [1, 0])) calling) 0x12 0 .range [] ∧
    sends (run (.resetWindows (req 0 [0, 0])) (calling.setWin 0 .returned)) 0x12 0 .ok [1, 0] ∧
    sends (run (.silence (req 0 [15])) calling) 0x11 0 .ok [1, 0] ∧
    sends (run (.silence (req 0 [16])) calling) 0x11 0 .range [] ∧
    sends (run (.brightness (req 0 [1, 0])) calling) 0x15 0 .ok [1, 0] ∧
    sends (run (.brightness (req 0 [16, 0])) calling) 0x15 0 .range [] ∧
    sends (run (.lampTest (req 0 [1, 0, 63, 255])) calling) 0x14 0 .ok [1, 0] ∧
    sends (run (.lampTest (req 0 [1, 0, 64, 1])) calling) 0x14 0 .range [] ∧
    sends (run (.resetGroups (req 0 [3, 0])) calling) 0x13 0 .ok [2, 0, 0, 1, 5] := by
  unfold State.systemLaw State.hears State.room
  decide +kernel

/-- Equation 2 in a state with its condition. -/
def withE2 (x : EquationState) (cond : Bool) : State :=
  base.modEqn 2 fun r => { r with state := x, cond := cond }

theorem test_equation_request_premises :
    (withE2 .tripped false).hears ∧ (withE2 .tripped false).systemLaw ∧
    (withE2 .tripped false).operating = true ∧ (withE2 .tripped false).room 1 ∧
    sends (run (.tripReset (req 0 [32])) base) 0x20 0 .range [] ∧
    sends (run (.tripReset (req 0 [2])) (withE2 .tripped false)) 0x20 0 .ok [1, 2, 0] ∧
    sends (run (.tripReset (req 0 [2])) (withE2 .tripped true)) 0x20 0 .present [1, 2, 1] ∧
    sends (run (.tripReset (req 0 [31])) base) 0x20 0 .ok [1, 31, 3] ∧
    sends (run (.tripReset (req 2 [255])) base) 0x20 2 .ok [3, 0, 2, 1, 2, 2, 2] ∧
    sends (run (.arm (req 0 [2])) (withE2 .disarmed false)) 0x21 0 .ok [1, 2, 0] ∧
    sends (run (.arm (req 0 [2])) (withE2 .disarmed true)) 0x21 0 .present [1, 2, 1] ∧
    sends (run (.arm (req 0 [2])) base) 0x21 0 .ok [1, 2, 2] := by
  unfold State.systemLaw State.hears State.room
  decide +kernel

/-- A Force Table of eight entries. -/
def manyForced : State :=
  sysFollow false 7 { base with
    forces := (List.range 8).map fun i => ⟨Fin.ofNat 268 (10 + i), .normal, ⟨0, 0⟩, 0, 1⟩ }

theorem test_force_premises :
    manyForced.hears ∧ manyForced.systemLaw ∧ manyForced.forced 0 = false ∧
    forced.forced 0 = true ∧ base.room 1 ∧
    sends (run (.force (req 0 [0, 0, 1, 0, 0])) base) 0x22 0 .ok [1, 0, 1] ∧
    sends (run (.force (req 0 [0, 0, 0, 255, 255])) base) 0x22 0 .ok [160, 5, 1] ∧
    sends (run (.force (req 0 [3, 0, 1, 0, 0])) base) 0x22 0 .kind [] ∧
    sends (run (.force (req 0 [11, 1, 1, 0, 0])) base) 0x22 0 .kind [] ∧
    sends (run (.force (req 0 [12, 1, 1, 0, 0])) base) 0x22 0 .range [] ∧
    sends (run (.force (req 0 [0, 0, 2, 0, 0])) base) 0x22 0 .range [] ∧
    sends (run (.force (req 0 [0, 0, 1, 0, 0])) manyForced) 0x22 0 .full [] := by
  unfold State.systemLaw State.hears State.room
  decide +kernel

theorem test_unforce_premises :
    (({ forced with link := base.link } : State).hears ∧
     ({ forced with link := base.link } : State).systemLaw) ∧
    (let s : State := { forced with link := base.link }
     s.forcedValue 0 = some .abnormal ∧
     sends (run (.unforce (req 0 [12, 1])) s) 0x23 0 .range [] ∧
     sends (run (.unforce (req 0 [11, 1])) s) 0x23 0 .absent [] ∧
     sends (run (.unforce (req 0 [255, 255])) s) 0x23 0 .ok [1]) := by
  unfold State.systemLaw State.hears
  decide +kernel

/-- Two forced points. -/
def twiceForced : State :=
  sysFollow false 7 { base with
    forces := [⟨0, .abnormal, ⟨0, 0⟩, 0, 1⟩, ⟨2, .abnormal, ⟨0, 0⟩, 0, 1⟩] }

theorem test_unforce_all_premises :
    twiceForced.hears ∧ twiceForced.systemLaw ∧ (twiceForced.forces.map ForceEntry.point).Nodup := by
  unfold State.systemLaw State.hears
  decide +kernel

/-- UNFORCE of every entry: a FORCE_OFF record for each, in table order, with the records of its removal
between them (R17, R18). -/
theorem test_unforce_all :
    ((run (.unforce (req 0 [255, 255])) twiceForced).log.recs.drop 4).map LogRecord.body =
      [.forceOff 0 .abnormal .request, .point 0 .normal { unforce := true } ⟨0, 0⟩,
       .forceOff 2 .abnormal .request, .point 2 .normal { unforce := true } ⟨0, 0⟩,
       .point 263 .normal { system := true } ⟨0, 0⟩] := by
  decide +kernel

theorem test_output_request_premises :
    (verifying true true).hears ∧ (verifying true true).systemLaw ∧ (verifying true true).settle = none ∧
    base.service = .commissioning ∧ base.room 16 ∧
    base.cfg.outputs[(0 : Fin 16)].kind = .sustained ∧ base.out[(0 : Fin 16)].demanded = false ∧
    sends (run (.clearFaults (req 0 [255, 255])) (verifying true true)) 0x25 0 .ok [1, 0] ∧
    sends (run (.clearFaults (req 0 [1, 0])) (verifying false true)) 0x25 0 .ok [0, 0] ∧
    sends (run (.outputSet (req 0 [1, 128])) base) 0x26 0 .ok [1, 128] ∧
    (run (.outputSet (req 0 [1, 128])) base).out[(0 : Fin 16)].commanded = true ∧
    (let s := base.modOut 0 fun r => { r with manual := true, commanded := true }
     sends (run (.outputClear (req 0 [1, 0])) s) 0x27 0 .ok [0, 0] ∧
     (run (.outputClear (req 0 [1, 0])) s).out[(0 : Fin 16)].commanded = false) := by
  unfold State.systemLaw State.hears State.room
  decide +kernel

/-- A log of 1023 records, and equation 3 with record `e` and term A at its value. -/
def onFull (e : EquationRecord) (x : EquationState) (s : State) : State :=
  holding 1023 ((s.setCfg (equationAt 3 e s.cfg)).modEqn 3 fun r =>
    { r with state := x, cond := x == .tripped })

/-- O0 and O1 faulted and agreeing; O1 is driven by an IDLE equation that point 261 trips. -/
def judged : State :=
  onFull (whileA (.point 261) 0 2 .latch) .idle
    (sysFollow false 6 ((base.modOut 0 fun r => { r with fault := true }).modOut 1 fun r =>
      { r with fault := true }))

/-- Every readback is judged when the request is taken: the record of O0 fills the log, which energizes O1
against its readback, and the flag of O1 is cleared all the same (R132). -/
theorem test_faults_judged_when_taken :
    judged.systemLaw ∧ judged.hears ∧ judged.settle = none ∧ base.room 17 ∧
    (let t := run (.clearFaults (req 0 [3, 0])) judged
     sends t 0x25 0 .ok [0, 0] ∧ t.out[(1 : Fin 16)].commanded = true ∧
     t.out[(0 : Fin 16)].fault = false ∧ t.out[(1 : Fin 16)].fault = false ∧
     t.pt[(262 : Fin 268)].qual = .normal) := by
  unfold State.systemLaw State.hears State.room
  decide +kernel

/-- O1, a PULSE output whose pulse is over, demanded by a FOLLOW equation that point 261 releases. -/
def followed : State :=
  onFull { whileA (.point 261) 0 2 .follow with func := 3 } .tripped
    (base.modOut 1 fun r => { r with demanding := 8 })

/-- The manual demand is set before its record fills the log: O1 stays demanded as point 261 releases the
equation, and no new pulse starts (R133). -/
theorem test_manual_before_release :
    followed.systemLaw ∧
    (let t := run (.outputSet (req 0 [2, 0])) followed
     sends t 0x26 0 .ok [2, 0] ∧ t.eqn[(3 : Fin 32)].state = .idle ∧
     t.out[(1 : Fin 16)] = { followed.out[(1 : Fin 16)] with demanding := 0, manual := true }) := by
  unfold State.systemLaw
  decide +kernel

/-- 863,999,999 is the last day-time, 864,000,000 the first refused; a step of one day forwards. -/
theorem test_set_time_premises :
    base.listening = true ∧ base.addressed = true ∧
    rd32 (req 0 [1, 0, 0xFF, 0x97, 0x7F, 0x33]).body 2 = 863999999 ∧
    (run (.setTime true (req 0 [1, 0, 0xFF, 0x97, 0x7F, 0x33])) base).clock =
      ⟨⟨1, 863999999⟩, .free, none⟩ ∧
    sends (run (.setTime false (req 0 [1, 0, 0, 0, 0, 0])) base) 0x28 0 .ok
      [0, 152, 127, 51, 1] ∧
    sends (run (.setTime false (req 0 [1, 0, 0, 0x98, 0x7F, 0x33])) base) 0x28 0 .range [] := by
  decide +kernel

/-! ### The hypotheses are met: configuration, the store and the starts -/

/-- For each PUT a body that is taken, and for each refusal that its statement names one that is refused. -/
theorem test_put_premises :
    (run (.putPoint (req 0 [0, 0, 16, 0, 0, 0, 0, 0, 9, 0, 0, 0, 0, 0])) base).cfg.points[(0 : Fin 268)].weight = 9 ∧
    sends (run (.putPoint (req 0 [2, 0, 128, 0, 0, 0, 0, 0, 9, 0, 0, 0, 0, 0])) base) 0x30 0 .conflict [] ∧
    sends (run (.putPoint (req 0 [0, 0, 16, 0, 0, 0, 0, 0, 64, 0, 0, 0, 0, 0])) base) 0x30 0 .range [] ∧
    (run (.putUnit (req 0 [1, 8, 0, 0, 0, 0, 0, 0, 88, 2, 0, 0])) base).cfg.units[(1 : Fin 9)].settle = 600 ∧
    sends (run (.putUnit (req 0 [0, 1, 3, 0, 0, 0, 0, 0, 0, 0, 0, 0])) base) 0x32 0 .conflict [] ∧
    (run (.putWindow (req 0 [191, 1, 3, 0, 0, 0])) base).cfg.windows[(191 : Fin 192)].seq = .seqS ∧
    (run (.putPanel (req 0 [4, 0, 0, 1, 191])) base).cfg.panels[(3 : Fin 4)].positions = [191] ∧
    sends (run (.putPanel (req 0 [4, 1, 0, 2, 5, 5])) base) 0x36 0 .conflict [] ∧
    sends (run (.putPanel (req 0 [4, 0, 0, 1, 191])) base) 0x36 0 .ok [1] ∧
    (run (.putGroup (req 0 [15, 3, 9, 4])) base).cfg.groups[(15 : Fin 16)] = ⟨9, some 3⟩ ∧
    (run (.putOutput (req 0 [15, 4, 0, 0, 0, 5, 0, 0])) base).cfg.outputs[(15 : Fin 16)].verify = 5 ∧
    (run (.putSettings (req 0 [4, 0, 0, 0, 7, 0, 0, 0, 0, 0])) base).cfg.settings.silence = 7 := by
  decide +kernel

/-- The bytes of a PUT_EQUATION of equation 2 on equation `e` (R105). -/
def putE2 (e : Nat) : Request := req 0 ([2, 1, 1, 2, e, 0, 0, 0, 0, 0, 0, 12, 0, 0, 0, 0, 0, 0])

theorem test_put_equation_premises :
    base.store.differs = true ∧
    sends (run (.putEquation (putE2 2)) base) 0x3A 0 .order [] ∧
    sends (run (.putEquation (putE2 1)) base) 0x3A 0 .ok [2, 0] ∧
    sends (run (.putEquation (putE2 1)) (withE2 .tripped true)) 0x3A 0 .ok [4, 1] ∧
    (run (.putEquation (putE2 1)) (withE2 .tripped true)).eqn[(2 : Fin 32)].overwrite = false := by
  decide +kernel

/-- The values of terms, and the equations a record of equation 3 may name (R102, R104). -/
theorem test_terms :
    ([Term.const true, .const false, .point 0, .point 1, .equation 0, .mode 1 .stopped,
        .mode 1 .changeover, .mode 0 .common].map (forced).term =
      [true, false, true, false, false, true, false, true]) ∧
    (withE2 .tripped true).term (.equation 2) = true ∧
    [Term.equation 2, .equation 3, .equation 31, .point 267].map (Term.below 3) =
      [true, false, false, true] ∧
    [TermSource.point 3, .equation 3, .mode 3].map (Term.names (.equation 3)) = [false, true, false] := by
  decide +kernel

theorem test_save_premises :
    base.store.job = none ∧ (storing 20000).systemLaw ∧
    (run (.save (req 0 [])) base).store.job.isSome = true ∧
    (run .saveSuccess (storing 20000)).store.image.check = true ∧
    (run .saveSuccess (storing 20001)).store.job.isSome = true ∧
    (run .saveFailure (storing 20001)).store.lastFailed = true ∧
    (run .saveFailure (storing 20001)).pt[(267 : Fin 268)].qual = .abnormal := by
  unfold State.systemLaw
  decide +kernel

theorem test_service_premises :
    State.reset.hears ∧ State.reset.settle = none ∧ State.reset.room 1 ∧
    sends (run (.setService (req 0 [3])) base) 0x41 0 .range [] ∧
    sends (run (.setService (req 0 [1])) base) 0x41 0 .ok [1, 0] ∧
    sends (run (.setService (req 0 [2])) State.reset) 0x41 0 .state [] ∧
    sends (run (.setService (req 0 [1])) State.reset) 0x41 0 .ok [1, 1] ∧
    (run (.setService (req 0 [1])) State.reset).settle = some 0 ∧
    sends (run (.setService (req 0 [2])) base) 0x41 0 .ok [2, 0] ∧
    sends (run (.setService (req 0 [0])) { base with service := .inService }) 0x41 0 .state [] ∧
    sends (run (.setService (req 0 [0])) base) 0x41 0 .ok [0, 0] ∧
    sends (run (.clearAll (req 0 [])) base) 0x42 0 .ok [1, 1] := by
  unfold State.hears State.room
  decide +kernel

/-- A start with a blank store, and the store during a SAVE. -/
theorem test_start_premises :
    base.store.job = none ∧ (storing 5).store.job.isSome = true ∧ base.store.image.good = false ∧
    (run .resetLine base).service = .unconfigured := by
  decide +kernel

/-- The hall as a stored image, after 7 clock units. -/
def stored : State := later 7 (base.setStore { base.store with image := ⟨hall, .commissioning, true⟩ })

/-- A start from a good image loads it (R168). -/
theorem test_start_from_good_image :
    stored.store.job = none ∧ stored.store.image.good = true ∧
    (let t := run .resetLine stored
     (t.service, t.settle, t.store.differs, t.cfg.settings, (t.log.recs[0]?.map LogRecord.body)) =
       (.commissioning, some 7, false, hall.settings, some (.service .commissioning .resetLine))) := by
  decide +kernel

/-- `n` ALARM points feed W7. -/
def feeding (n : Nat) : Tables := { Tables.default with
  points := tab fun p =>
    if p.val < n then { PointConfig.default p with kind := .alarm, window := some 7 }
    else PointConfig.default p }

/-- The tests of an image: its check word, the contributors of a window, a window twice on a panel, the kind of
a role's point, the ordering and the ranges (R168). -/
theorem test_bad_images :
    (StoredImage.mk hall .commissioning false).good = false ∧
    ((feeding 8).contributors 7).length = 8 ∧ ((feeding 9).contributors 7).length = 9 ∧
    repeats [0, 1, 0] = true ∧ repeats [0, 1] = false ∧
    (feeding 1).roleOk .mode (some 0) = false ∧ (feeding 1).roleOk .alarm (some 0) = true ∧
    (equationAt 0 (whileA (.equation 0) 0 0 .latch) Tables.default).lawful = false ∧
    PointConfig.inRange true (PointConfig.default 261) = true ∧
    PointConfig.inRange true { PointConfig.default 261 with weight := 1 } = false ∧
    PointConfig.inRange false { PointConfig.default 0 with threshold := 0 } = false := by
  decide +kernel

/-- The settle of 250 ms is not over after 2499 clock units and is over after 2500 (R170). -/
theorem test_settle_end_premises :
    (later 2499 settling).settleOver = false ∧ (later 2500 settling).settleOver = true ∧
    settling.systemLaw ∧ settling.room 300 := by
  unfold State.systemLaw State.room
  decide +kernel

/-- A settle that is over, with the contacts of point 0, of unit 1's RUN point and of its block key closed. -/
def waking : State :=
  later 2500
    { ((base.modPt 0 fun r => { r with raw := true }).modPt 3 fun r => { r with raw := true }).modPt 4 fun r =>
        { r with raw := true } with
      settle := some 0, decay := none, eqn := State.reset.eqn }

theorem test_waking_laws :
    waking.roleLaw ∧ waking.activeLaw ∧ waking.systemLaw ∧ waking.orderLaw ∧ waking.timingLaw := by
  have h : ∀ k : Fin 32, waking.cfg.equations[k].a.below k = true ∧
      waking.cfg.equations[k].b.below k = true ∧ waking.eqn[k].staged = none ∧
      waking.eqn[k].state = .unused := by decide +kernel
  refine ⟨test_base_roles.1, active_of_system (by decide +kernel) (by decide +kernel),
    by unfold State.systemLaw; decide +kernel, fun k => ⟨⟨(h k).1, (h k).2.1⟩, fun e he => ?_⟩, fun k => ?_⟩
  · rw [(h k).2.2.1] at he
    cases he
  · obtain ⟨-, -, -, hu⟩ := h k
    refine ⟨fun _ => hu, ?_, ?_, ?_⟩ <;> rw [hu] <;> intro h <;> cases h

/-- The seeding: the records of points 0, 3 and 4, the MODE record of unit 1, that of point 266; W0 has an
arrival and its neighbour none. -/
theorem test_settle_end_seeds :
    waking.settleOver = true ∧ waking.room 5 ∧ waking.pt[(266 : Fin 268)].qual = .normal ∧
    (let t := run .settleEnd waking
     (t.log.recs.drop waking.log.recs.length).map LogRecord.body =
       [.point 0 .abnormal { startup := true } ⟨0, 0⟩, .point 3 .abnormal { startup := true } ⟨0, 0⟩,
        .point 4 .abnormal { startup := true } ⟨0, 0⟩, .mode 1 .stopped .generate,
        .point 266 .abnormal { system := true, startup := true } ⟨0, 0⟩] ∧
     t.win[(0 : Fin 192)] = .alert ∧ t.win[(1 : Fin 192)] = waking.win[(1 : Fin 192)] ∧
     t.pan[(0 : Fin 4)].calls.c2 = true ∧ t.news[(1 : Fin 9)] = ⟨true, false, true, false⟩ ∧
     t.un[(1 : Fin 9)].blocked = true ∧ t.eqn[(0 : Fin 32)].state = .disarmed ∧
     t.eqn[(2 : Fin 32)].state = .blocked) := by
  unfold State.room
  decide +kernel

/-! ### The hypotheses are met: chatter, units, windows, Trip Logic, the end of a silence -/

/-- The check comes before the count: a debounce expiry that ends the chattering leaves a count of 1, and
its CHATTER_OFF the count before (R6, R10); one that makes the point chatter writes CHATTER_ON. -/
theorem test_debounce_chatter_premises :
    (let s := later 80 (closing.modPt 0 fun r => { r with chattering := true, score := 5, suppressed := 7 })
     s.debounceDue 0 = some ⟨0, 0⟩ ∧ s.room 2 ∧
     (run (.debounceExpiry 0) s).pt[(0 : Fin 268)].suppressed = 1 ∧
     (run (.debounceExpiry 0) s).log.recs[s.log.recs.length]?.map LogRecord.body =
       some (.chatterOff 0 .abnormal 7)) ∧
    (let s := later 80 (closing.modPt 0 fun r => { r with score := 45 })
     s.debounceDue 0 = some ⟨0, 0⟩ ∧ s.room 2 ∧ s.pt[(0 : Fin 268)].chattering = false ∧
     (run (.debounceExpiry 0) s).log.recs[s.log.recs.length + 1]?.map LogRecord.body =
       some (.chatterOn 0 65)) := by
  unfold State.room
  decide +kernel

/-- The base hall with points ABNORMAL that Trip Logic and the units have not yet taken. -/
def abnormal (ps : List (Fin 268)) : State :=
  ps.foldl (fun s p => s.modPt p fun r => { r with qual := .abnormal, active := true }) base

/-- A changeover starts, is retargeted, and is passed over where the settle time is 0. The roles stand as in
`base`, whose law is `test_base_roles`. -/
theorem test_redecode_premises :
    (let x := (redecode 1 (abnormal [3])).un[(1 : Fin 9)]
     x.current = .changeover ∧ x.target = some .generate ∧ x.settle = some 0) ∧
    (let s := later 7 ((abnormal [3]).modUn 1 fun r =>
       { r with decoded := .stopped, current := .changeover, target := some .stopped, settle := some 0 })
     (redecode 1 s).un[(1 : Fin 9)].target = some .generate ∧
     (redecode 1 s).un[(1 : Fin 9)].settle = some 7) ∧
    (let s := abnormal [3]
     let s := s.setCfg { s.cfg with units := s.cfg.units.set 1 ⟨some 3, none, none, 0, some 4⟩ }
     (redecode 1 s).un[(1 : Fin 9)].current = .generate ∧ s.room 1) ∧
    (redecode 1 base).un[(1 : Fin 9)].current = base.un[(1 : Fin 9)].current ∧
    base.cfg.units[(1 : Fin 9)].run = some 3 ∧ base.cfg.units[(1 : Fin 9)].key = some 4 ∧
    (handEffective 4 ⟨0, 0⟩ (abnormal [4])).un[(1 : Fin 9)].blocked = true ∧
    (abnormal [3]).cfg = base.cfg ∧ (abnormal [4]).cfg = base.cfg ∧
    (∀ u : Fin 9, ¬ (base.cfg.units[u].run = some 0 ∨ base.cfg.units[u].pump = some 0 ∨
      base.cfg.units[u].cond = some 0) ∧ base.cfg.units[u].key ≠ some 0) := by
  unfold State.room
  decide +kernel

/-- A PUT_UNIT that lowers the settle time of a running changeover to 0 ends it. -/
theorem test_put_unit_premises :
    let b := (req 0 [1, 8, 0, 0, 0, 0, 0, 0, 0, 0, 0, 0]).body
    let s := later 5 changing
    UnitPut s.cfg.units[(1 : Fin 9)] b ⟨some 3, none, none, 0, some 4⟩ ∧
    ¬ unitAtOdds s.cfg 1 (rd8 b 1) ⟨some 3, none, none, 0, some 4⟩ ∧
    s.hears ∧ s.systemLaw ∧ s.roleLaw ∧ s.store.job = none ∧
    (run (.putUnit ⟨0, b⟩) s).un[(1 : Fin 9)].current = .generate := by
  intro b s
  have h : s.roleLaw := test_base_roles.1
  rw [← unitCandidate_eq_some, ← unitConflict_iff]
  simp only [h, true_and]
  unfold State.systemLaw State.hears
  decide +kernel

/-- W0 and W1 take an arrival, an exit from ALERT, a chime, a change of the list. -/
theorem test_window_premises :
    (0 : Fin 192) ∈ base.cfg.panels[(0 : Fin 4)].positions ∧
    (0 : Fin 192) ∉ base.cfg.panels[(1 : Fin 4)].positions ∧
    (arrival 0 1 base).pan[(0 : Fin 4)].horn = .cadence .c2 0 ∧
    (arrival 0 1 base).news[(1 : Fin 9)].alert = true ∧
    (exitAlert 0 ((arrival 0 1 base).setWin 0 .held)).pan[(0 : Fin 4)].horn = .silent ∧
    base.condition 0 = false ∧
    (departure 0 (base.setWin 0 .held)).pan[(0 : Fin 4)].horn = .chime 0 ∧
    (departure 1 (base.setWin 1 .alert)).win[(1 : Fin 192)] = .quiet ∧
    (listChange 1 (base.setWin 1 .alert)).win[(1 : Fin 192)] = .quiet ∧
    (base.isActive 0 ≠ true ∧ base.pt[(0 : Fin 268)].active = false) ∧
    (let s := base.modPt 0 fun r => { r with qual := .abnormal }
     s.isActive 0 = true ∧ (evalActive 0 .qualify ⟨0, 0⟩ s).win[(0 : Fin 192)] = .alert ∧
     (evalActive 0 .qualify ⟨0, 0⟩ s).grp[(0 : Fin 16)].firstOut = [0] ∧
     (evalActive 0 .mode ⟨0, 0⟩ s).grp[(0 : Fin 16)].firstOut = []) := by
  decide +kernel

/-- E1 of the hall follows E0; E1 TRIPPED with its condition true. -/
def following : State := base.modEqn 1 fun r => { r with state := .tripped, a := true, cond := true }

/-- A change of a term in each state of an equation, and the blocking of the unit. -/
theorem test_trip_premises :
    base.operating = true ∧
    (takeTermChange handTrip (.point 0) ⟨0, 0⟩ 0 (abnormal [0])).eqn[(0 : Fin 32)].state = .timing ∧
    (takeTermChange handTrip (.equation 0) ⟨0, 0⟩ 1
      (base.modEqn 0 fun r => { r with state := .tripped })).eqn[(1 : Fin 32)].state = .tripped ∧
    (takeTermChange handTrip (.point 1) ⟨0, 0⟩ 2 timing).eqn[(2 : Fin 32)].state = .idle ∧
    (takeTermChange handTrip (.equation 0) ⟨0, 0⟩ 1 following).eqn[(1 : Fin 32)].state = .idle ∧
    (takeTermChange handTrip (.point 1) ⟨0, 0⟩ 2 (withE2 .tripped true)).eqn[(2 : Fin 32)] =
      { (withE2 .tripped false).eqn[(2 : Fin 32)] with a := false } ∧
    (takeTermChange handTrip (.point 1) ⟨0, 0⟩ 2 (withE2 .disarmed true)).eqn[(2 : Fin 32)].state =
      .disarmed ∧
    (base.cfg.equations[(0 : Fin 32)].a.names (.point 1) ||
      base.cfg.equations[(0 : Fin 32)].b.names (.point 1)) = false ∧
    (blockEquation 2 timing).eqn[(2 : Fin 32)].state = .blocked ∧
    (unblockEquation 2 (withE2 .blocked true)).eqn[(2 : Fin 32)].state = .timing ∧
    (handTerm (.point 0) ⟨0, 0⟩ (abnormal [0])).eqn[(0 : Fin 32)].state = .timing ∧
    (tripUnit true 1 base).eqn[(2 : Fin 32)].state = .blocked := by
  decide +kernel

/-- The base hall after its station line was silent for too long. -/
def silent : State := sysFollow false 9 (base.setLink { base.link with silent := true })

/-- A broadcast, and a request, that ends a silence (R162). -/
theorem test_silence_premises :
    silent.systemLaw ∧ silent.link.silent = true ∧ silent.listening = true ∧ silent.addressed = true ∧
    silent.room 1 ∧ frameWf (frameOf 0 1 0 []) = true ∧
    judgeFrame silent.link.station.toNat (frameOf 0 1 0 []) = .broadcast ∧
    (run (.frameDiscard (frameOf 0 1 0 [])) silent).pt[(265 : Fin 268)].qual = .normal ∧
    (run (.readClock (req 0 [])) silent).pt[(265 : Fin 268)].qual = .normal := by
  unfold State.systemLaw State.room
  decide +kernel

/-- 1023 records and a silence: the record of point 265 fills the log, and the release that follows in the
same request ends that, so that point 261 makes both its transitions (R148, R149). -/
theorem test_release_after_silence :
    let t := run (.readEvents (req 0 [255])) (holding 1023 silent)
    t.log.recs.length = 770 ∧ t.pt[(261 : Fin 268)].qual = .normal ∧
    (t.log.recs.drop 768).map LogRecord.body =
      [.gap 2 ⟨0, 0⟩ ⟨0, 0⟩, .point 261 .normal { system := true } ⟨0, 0⟩] := by
  decide +kernel

/-- A GAP record counts a further loss. -/
theorem test_gap_counts :
    (Instr.force (req 0 [0, 0, 1, 0, 0])).removesRecords = false ∧
    ((run (.force (req 0 [0, 0, 1, 0, 0])) fullLog).log.recs[1023]?.map LogRecord.body) =
      some (.gap 4 ⟨0, 0⟩ ⟨0, 0⟩) := by
  decide +kernel

/-! ### The hypotheses are met: what PUT requests and TRIP_RESET do -/

/-- PUT_WINDOW of W0 as SEQ-S while it is in ALERT, and of its class. -/
theorem test_put_window_premises :
    let b := (req 0 [0, 3, 3, 1, 0, 0]).body
    let s := { calling with store := base.store }
    WindowPut s.cfg.windows[(0 : Fin 192)] b ⟨.seqS, .c1, .amber, true⟩ ∧
    s.hears ∧ s.systemLaw ∧ s.store.job = none ∧ s.store.differs = true ∧
    s.pan[(0 : Fin 4)].calls.has .c2 = true ∧
    (run (.putWindow ⟨0, b⟩) s).pan[(0 : Fin 4)].calls = ClassSet.empty := by
  intro b s
  rw [← windowCandidate_eq_some]
  unfold State.systemLaw State.hears
  decide +kernel

/-- PUT_PANEL of P1 while it is UP and while it is LOST, with another list. -/
theorem test_put_panel_premises :
    let b := (req 0 [1, 0, 12, 2, 191, 1]).body
    PanelPut b ⟨false, [191, 1], 8⟩ ∧ [(191 : Fin 192), 1].Nodup ∧
    (linked .lost 0 0).hears ∧ (linked .lost 0 0).systemLaw ∧ (linked .lost 0 0).room 1 ∧
    (run (.putPanel ⟨0, b⟩) (linked .lost 0 0)).pt[(256 : Fin 268)].qual = .normal ∧
    calling.pan[(0 : Fin 4)].link = .up ∧ calling.store.differs = true ∧
    (run (.putPanel ⟨0, b⟩) calling).pan[(0 : Fin 4)].calls = ClassSet.empty ∧
    (run (.putPanel ⟨0, b⟩) calling).pan[(0 : Fin 4)].link = .disabled := by
  intro b
  rw [← panelRecord_eq_some (by decide)]
  unfold State.systemLaw State.hears State.room
  decide +kernel

/-- A trip released by a TRIP_RESET, with and without a pending record. -/
theorem test_trip_reset_done :
    (let t := run (.tripReset (req 0 [2])) (withE2 .tripped false)
     t.eqn[(2 : Fin 32)].state = .idle ∧ t.log.full = false) ∧
    (let c := whileA (.point 0) 7 1 .follow
     let s := (withE2 .tripped false).modEqn 2 fun r => { r with staged := some c }
     let t := run (.tripReset (req 0 [2])) s
     t.cfg.equations[(2 : Fin 32)] = c ∧ t.eqn[(2 : Fin 32)].staged = none ∧ t.log.full = false) ∧
    (run (.tripReset (req 2 [255])) (withE2 .tripped false)).eqn[(2 : Fin 32)].state = .idle := by
  decide +kernel

theorem test_put_output_premises :
    let b := (req 0 [0, 17, 1, 0, 0, 0, 0, 0]).body
    OutputPut base.cfg.outputs[(0 : Fin 16)] b ⟨.pulse, 500, 50, true, 0⟩ ∧
    (let s := base.modOut 0 fun r => { r with manual := true, commanded := true }
     (run (.putOutput ⟨0, b⟩) s).out[(0 : Fin 16)].pulse = some ⟨0, 5000⟩) := by
  intro b
  rw [← outputCandidate_eq_some]
  decide +kernel

/-- A PUT_POINT that moves P0 to another window, one that ends its qualification, and those refused. -/
theorem test_put_point_premises :
    let old := base.cfg.points[(0 : Fin 268)]
    let b (mask : Nat) (w : Nat) := (req 0 [0, 0, mask, 0, 4, 0, 0, 0, 9, 0, 0, w, 0, 0]).body
    (PointPut 0 old (b 128 1) { old with window := some 1 } ∧
      ¬ pointConflict base.cfg 0 128 { old with window := some 1 } ∧
      ¬ windowFull base.cfg 0 { old with window := some 1 } ∧ old.kind = .alarm ∧
      base.pt[(0 : Fin 268)].active = base.isActive 0 ∧ base.store.differs = true) ∧
    (PointPut 0 old (b 1 0) { old with kind := .spare } ∧
      (run (.putPoint ⟨0, b 1 0⟩) { forced with link := base.link }).forces = []) ∧
    (∀ c, ¬ PointPut 0 old (b 128 192) c) := by
  intro old b
  have hn : ∀ c : PointConfig, c = { old with window := some 1 } →
      pointRefusal base.cfg 0 128 c = none := by
    intro c hc
    subst hc
    decide +kernel
  have h := hn _ rfl
  refine ⟨⟨pointCandidate_eq_some.1 (by decide +kernel), fun hc => ?_, fun hf => ?_, by decide +kernel,
    by decide +kernel, by decide +kernel⟩, ⟨pointCandidate_eq_some.1 (by decide +kernel), by decide +kernel⟩,
    fun c hc => ?_⟩
  · rw [pointRefusal_eq.1 hc] at h
    cases h
  · by_cases hc : pointConflict base.cfg 0 128 { old with window := some 1 }
    · rw [pointRefusal_eq.1 hc] at h
      cases h
    · rw [pointRefusal_eq.2.1 hc hf] at h
      cases h
  · have hx := pointCandidate_eq_some.2 hc
    revert hx
    have : pointCandidate (256 ≤ (0 : Fin 268).val) old (b 128 192) = none := by decide +kernel
    rw [this]
    intro hx
    cases hx

/-- W5 with eight contributors, and a ninth. -/
def crowded : State :=
  base.setCfg ([10, 11, 12, 13, 14, 15, 16, 17].foldl (fun t p =>
    pointAt p ⟨.alarm, 0, .alarmOnClosed, 8, 20, 60, 0b11111, some 5, none, true⟩ t) hall)

/-- For each PUT the refusals: item numbers beyond the table, values beyond their range, CONFLICT, FULL. -/
theorem test_put_refusals :
    (let c := { crowded.cfg.points[(0 : Fin 268)] with window := some (5 : Fin 192) }
     pointRefusal crowded.cfg 0 128 c = some .full) ∧
    crowded.hears ∧ crowded.systemLaw ∧
    sends (run (.putPoint (req 0 [0, 0, 128, 0, 0, 0, 0, 0, 0, 0, 0, 5, 0, 0])) crowded) 0x30 0 .full [] ∧
    sends (run (.putPoint (req 0 [12, 1, 0, 0, 0, 0, 0, 0, 0, 0, 0, 0, 0, 0])) base) 0x30 0 .range [] ∧
    sends (run (.putUnit (req 0 [9, 0, 0, 0, 0, 0, 0, 0, 0, 0, 0, 0])) base) 0x32 0 .range [] ∧
    sends (run (.putUnit (req 0 [1, 8, 0, 0, 0, 0, 0, 0, 89, 2, 0, 0])) base) 0x32 0 .range [] ∧
    sends (run (.putWindow (req 0 [192, 0, 0, 0, 0, 0])) base) 0x34 0 .range [] ∧
    sends (run (.putWindow (req 0 [0, 1, 4, 0, 0, 0])) base) 0x34 0 .range [] ∧
    sends (run (.putPanel (req 0 [0, 0, 0, 0])) base) 0x36 0 .range [] ∧
    sends (run (.putPanel (req 0 [5, 0, 0, 0])) base) 0x36 0 .range [] ∧
    sends (run (.putPanel (req 0 [1, 2, 0, 0])) base) 0x36 0 .range [] ∧
    sends (run (.putGroup (req 0 [16, 0, 0, 0])) base) 0x38 0 .range [] ∧
    sends (run (.putGroup (req 0 [15, 2, 0, 5])) base) 0x38 0 .range [] ∧
    sends (run (.putEquation (req 0 (32 :: List.replicate 17 0))) base) 0x3A 0 .range [] ∧
    sends (run (.putEquation (req 0 (0 :: 2 :: List.replicate 16 0))) base) 0x3A 0 .range [] ∧
    sends (run (.putOutput (req 0 [16, 0, 0, 0, 0, 0, 0, 0])) base) 0x3C 0 .range [] ∧
    sends (run (.putOutput (req 0 [0, 1, 2, 0, 0, 0, 0, 0])) base) 0x3C 0 .range [] := by
  unfold State.systemLaw State.hears
  decide +kernel

/-- A PUT_SETTINGS that disables the minute pulse of a LOCKED clock. -/
theorem test_put_settings_premises :
    let b := (req 0 [8, 0, 0, 0, 0, 0, 0, 0, 0, 0]).body
    let s := clocked 9 0 .locked
    SettingsPut s.cfg.settings b { s.cfg.settings with minutePulse := false } ∧
    s.hears ∧ s.systemLaw ∧ s.room 1 ∧
    (run (.putSettings ⟨0, b⟩) s).clock.state = .free ∧
    (run (.putSettings ⟨0, b⟩) s).log.recs[s.log.recs.length]?.map LogRecord.body =
      some (.clock 0 .disable .free) := by
  intro b s
  rw [← settingsCandidate_eq_some]
  unfold State.systemLaw State.hears State.room
  decide +kernel

/-- The return to UNCONFIGURED, with a log that is not full after it. -/
theorem test_return_premises :
    let t := run (.setService (req 0 [0])) { calling with settle := none }
    t.service = .unconfigured ∧ t.log.full = false ∧ t.grp[(0 : Fin 16)].state = .armed ∧
    base.cfg.points[(261 : Fin 268)].group = none ∧
    (∀ k : Fin 12, base.cfg.points[sysPoint k].window ≠ some 0) ∧ t.win[(0 : Fin 192)] = .quiet := by
  decide +kernel

end Sys2Proof.Tests
end

/-! What a qualification transition leaves (R6, R10, R11), and what a change of contact level does (R5). -/
namespace Sys2Proof.Machine

/-! ### Handing on an effective state

A change of effective state may redecode units and set their blocked flags, so what it leaves is what every
handing on leaves, but for the units. -/

/-- All that handing on leaves (`Kept 256`), but for the units. -/
def KeptButUnits (s t : State) : Prop := Kept 256 { s with un := t.un } t

/-- What is kept stays so whatever the units hold. -/
theorem Kept.withUnits {m : Nat} {s t : State} (h : Kept m s t) (x : Vector UnitRun 9) :
    Kept m { s with un := x } { t with un := x } := { h with un := rfl }

theorem Kept.butUnits {s t : State} (h : Kept 256 s t) : KeptButUnits s t := { h with un := rfl }

theorem KeptButUnits.refl (s : State) : KeptButUnits s s := Kept.refl 256 s

theorem KeptButUnits.trans {s t u : State} (h : KeptButUnits s t) (k : KeptButUnits t u) :
    KeptButUnits s u := (Kept.withUnits h u.un).trans k

theorem KeptButUnits.modUn {s t : State} (h : KeptButUnits s t) (u : Fin 9) (f : UnitRun → UnitRun) :
    KeptButUnits s (t.modUn u f) := Kept.withUnits h _

theorem KeptButUnits.ripple {s t u : State} (h : KeptButUnits s t) (k : Ripple t u) : KeptButUnits s u :=
  h.trans (k.kept.mono (by omega)).butUnits

theorem changeMode_kept (u : Fin 9) (new : Mode) (s : State) : KeptButUnits s (changeMode u new s) := by
  have hrec := logged_ripple
    (recordMode_ripple u s.un[u].current new (s.modUn u fun r => { r with current := new })).ripple
  exact (((KeptButUnits.refl s).modUn u _).ripple hrec).ripple
    ((evalUnit_ripple u .mode _).op (handTerm_ripple (.mode u) _ _))

theorem redecode_kept (u : Fin 9) (s : State) : KeptButUnits s (redecode u s) := by
  have hs := KeptButUnits.refl s
  unfold redecode
  extract_lets d s'
  have hs' : KeptButUnits s s' := hs.modUn u _
  split
  · exact hs
  split
  · exact hs'.modUn u _
  split
  · exact hs'
  split
  · exact hs'.trans (changeMode_kept u d s')
  · exact (hs'.modUn u _).trans (changeMode_kept u .changeover _)

theorem reblock_kept (us : List (Fin 9)) (s : State) : KeptButUnits s (reblock us s) := by
  unfold reblock
  extract_lets changed flagged told
  have hflag : KeptButUnits s flagged :=
    foldl_rel .refl (fun _ _ _ => .trans) (fun s u => (KeptButUnits.refl s).modUn u _) changed s
  have htell : KeptButUnits flagged told :=
    foldl_rel .refl (fun _ _ _ => .trans)
      (fun s u => (KeptButUnits.refl s).ripple (tripUnit_ripple _ u s)) changed flagged
  exact (hflag.trans htell).trans (sysFollow_kept false 10 told).butUnits

/-- What handing on a change of effective state leaves (R11). -/
theorem handEffective_kept (p : Fin 268) (t : TimeStamp) (s : State) :
    KeptButUnits s (handEffective p t s) := by
  unfold handEffective
  extract_lets termed decoded keyed
  have hterm : KeptButUnits s termed := (KeptButUnits.refl s).ripple (handTerm_ripple _ _ _)
  have hdecode : KeptButUnits termed decoded :=
    each_rel .refl (fun _ _ _ => .trans) (fun u s => by
      split
      · exact redecode_kept u s
      · exact .refl s) termed
  have h := hterm.trans hdecode
  split
  · exact h
  · exact h.trans (reblock_kept keyed decoded)

/-! ### Changes of one field point between stretches of handing on -/

theorem modPt_congr {s : State} {p : Fin 268} {f g : PointRun → PointRun} (h : f s.pt[p] = g s.pt[p]) :
    s.modPt p f = s.modPt p g := by
  unfold State.modPt
  rw [h]

theorem modPt_modPt (s : State) (p : Fin 268) (f g : PointRun → PointRun) :
    (s.modPt p f).modPt p g = s.modPt p (g ∘ f) := by
  simp [State.modPt]

theorem modPt_fixed {s : State} {p : Fin 268} {f : PointRun → PointRun} (h : f s.pt[p] = s.pt[p]) :
    s.modPt p f = s := by
  unfold State.modPt
  rw [h, show s.pt.set p.val s.pt[p] p.isLt = s.pt from Vector.set_getElem_self p.isLt]

/-- A change of a point that neither reads nor writes its active flag. -/
def ActiveBlind (f : PointRun → PointRun) : Prop :=
  ∀ (r : PointRun) (v : Bool), f { r with active := v } = { f r with active := v }

theorem afterCheck_blind (threshold : Nat) : ActiveBlind (·.afterCheck threshold) := by
  intro r v
  unfold PointRun.afterCheck
  dsimp only
  split
  · split <;> rfl
  · rfl

theorem suppress_blind : ActiveBlind PointRun.suppress := fun _ _ => rfl

theorem ne_sysPoint_of_lt {p : Fin 268} (hp : p.val < 256) (k : Fin 12) : p ≠ sysPoint k := by
  rintro rfl
  simp [sysPoint] at hp

/-- The same change of a field point, made before and after a stretch of handing on. -/
theorem Kept.modPt {s t : State} (h : Kept 256 s t) {p : Fin 268} (hp : p.val < 256)
    {f : PointRun → PointRun} (hf : ActiveBlind f) : Kept 256 (s.modPt p f) (t.modPt p f) := by
  have h5 := ne_sysPoint_of_lt hp 5
  have hpt : t.pt[p] = { s.pt[p] with active := t.pt[p].active } := by
    rw [← h.pt p hp h5]
  have hft : f t.pt[p] = { f s.pt[p] with active := t.pt[p].active } := by
    rw [hpt, hf]
  refine { h with pt := fun q hq hq5 => ?_, ptCore := fun q => ?_ }
  · by_cases e : q = p
    · subst e
      rw [modPt_pt_self, modPt_pt_self, hft]
    · rw [modPt_pt_other _ _ _ _ e, modPt_pt_other _ _ _ _ e]
      exact h.pt q hq hq5
  · by_cases e : q = p
    · subst e
      rw [modPt_pt_self, modPt_pt_self, hft]
      exact ⟨rfl, rfl, rfl, rfl⟩
    · rw [modPt_pt_other _ _ _ _ e, modPt_pt_other _ _ _ _ e]
      exact h.ptCore q

/-! ### The chatter check and the qualification transition -/

theorem PointRun.afterCheck_starts {r : PointRun} {threshold : Nat} (hr : r.chattering = false)
    (h : threshold ≤ r.score) : r.afterCheck threshold = { r with chattering := true } := by
  simp [PointRun.afterCheck, hr, h]

theorem PointRun.afterCheck_ends {r : PointRun} {threshold : Nat} (hr : r.chattering = true)
    (h : r.score ≤ threshold / 2) :
    r.afterCheck threshold = { r with chattering := false, suppressed := 0 } := by
  simp [PointRun.afterCheck, hr, h]

theorem PointRun.afterCheck_stands {r : PointRun} {threshold : Nat}
    (hoff : r.chattering = false → r.score < threshold)
    (hon : r.chattering = true → threshold / 2 < r.score) : r.afterCheck threshold = r := by
  unfold PointRun.afterCheck
  split
  next hr => rw [if_neg (Nat.not_le.mpr (hon hr))]
  next hr =>
    have hr' : r.chattering = false := by simpa using hr
    rw [decide_eq_false (Nat.not_le.mpr (hoff hr')), ← hr']

/-- The chatter check changes the point, and then hands its record to the log (R10). -/
theorem chatterCheck_ripple (p : Fin 268) (s : State) :
    Ripple (s.modPt p (·.afterCheck s.cfg.points[p].threshold)) (chatterCheck p s) := by
  unfold chatterCheck
  extract_lets c r on off
  split
  next h =>
    obtain ⟨hr, hT⟩ : r.chattering = false ∧ c.threshold ≤ r.score := by simpa using h
    have hon : s.modPt p (·.afterCheck c.threshold) = on :=
      modPt_congr (PointRun.afterCheck_starts hr hT)
    rw [hon]
    exact .ite (record_ripple _ _) (.start _)
  next hon =>
    split
    next h =>
      obtain ⟨hr, hT⟩ : r.chattering = true ∧ r.score ≤ c.threshold / 2 := by simpa using h
      have hoff : s.modPt p (·.afterCheck c.threshold) = off :=
        modPt_congr (PointRun.afterCheck_ends hr hT)
      rw [hoff]
      exact .ite (record_ripple _ _) (.start _)
    next hoff =>
      have hstands : r.afterCheck c.threshold = r :=
        PointRun.afterCheck_stands (by simpa using hon) (by simpa using hoff)
      have hfix : s.modPt p (·.afterCheck c.threshold) = s :=
        modPt_fixed hstands
      rw [hfix]

/-- A qualification transition changes the point as R6, R9 and R10 say, and hands its consequences on; all
else that it leaves is what handing on leaves. -/
theorem qualifyTo_kept (w : Option (Fin 192)) (g : Option (Fin 16)) {p : Fin 268} (hp : p.val < 256)
    (e : TimeStamp) (s : State) :
    KeptButUnits (s.modPt p (·.afterTransition s.cfg.points[p] (s.level p) e))
      (qualifyTo w g p e s) := by
  unfold qualifyTo
  extract_lets c q was edged logged checked counted
  have hlogged : Ripple edged logged := .ite (record_ripple _ _) (.start _)
  have hT : logged.cfg.points[p].threshold = c.threshold := by
    rw [hlogged.kept.points]; rfl
  have hchecked : Kept 256 (edged.modPt p (·.afterCheck c.threshold)) checked := by
    rw [← hT]
    exact ((hlogged.kept.mono (by omega)).modPt hp (afterCheck_blind _)).trans
      ((chatterCheck_ripple p logged).kept.mono (by omega))
  have hcounted : Kept 256 (s.modPt p (·.afterTransition c q e)) counted := by
    by_cases hwas : s.pt[p].chattering = true
    · have hstart : s.modPt p (·.afterTransition c q e) =
          (edged.modPt p (·.afterCheck c.threshold)).modPt p PointRun.suppress := by
        rw [modPt_modPt, modPt_modPt]
        exact modPt_congr (if_pos hwas)
      rw [hstart, show counted = checked.modPt p PointRun.suppress from if_pos hwas]
      exact hchecked.modPt hp suppress_blind
    · have hstart : s.modPt p (·.afterTransition c q e) =
          edged.modPt p (·.afterCheck c.threshold) := by
        rw [modPt_modPt]
        exact modPt_congr (if_neg hwas)
      rw [hstart, show counted = checked from if_neg hwas]
      exact hchecked
  split
  · exact hcounted.butUnits
  · exact (hcounted.butUnits.trans (handEffective_kept p e counted)).ripple
      (evalActiveTo_ripple p .qualify e w g _)

/-- The chatter check changes no field of the point but its chattering state and its suppressed count. -/
theorem PointRun.afterCheck_fields (r : PointRun) (threshold : Nat) :
    (r.afterCheck threshold).raw = r.raw ∧ (r.afterCheck threshold).qual = r.qual ∧
    (r.afterCheck threshold).lastEdge = r.lastEdge ∧
    (r.afterCheck threshold).debounce = r.debounce := by
  unfold PointRun.afterCheck
  split
  · split <;> exact ⟨rfl, rfl, rfl, rfl⟩
  · exact ⟨rfl, rfl, rfl, rfl⟩

theorem PointRun.afterTransition_fields (r : PointRun) (c : PointConfig) (level : PointState)
    (e : TimeStamp) :
    (r.afterTransition c level e).raw = r.raw ∧ (r.afterTransition c level e).qual = level ∧
    (r.afterTransition c level e).lastEdge = e ∧ (r.afterTransition c level e).debounce = none := by
  unfold PointRun.afterTransition
  extract_lets moved checked
  have h := PointRun.afterCheck_fields moved c.threshold
  split <;> exact h

/-- What a qualification transition leaves in the contact, debounce and edge fields of the point (R6). -/
theorem qualify_point {p : Fin 268} (hp : p.val < 256) (e : TimeStamp) (s : State) :
    (qualify p e s).pt[p].raw = s.pt[p].raw ∧ (qualify p e s).pt[p].qual = s.level p ∧
    (qualify p e s).pt[p].lastEdge = e ∧ (qualify p e s).pt[p].debounce = none := by
  have h : KeptButUnits _ (qualify p e s) := qualifyTo_kept _ _ hp e s
  have h5 := ne_sysPoint_of_lt hp 5
  have hself := modPt_pt_self s p (·.afterTransition s.cfg.points[p] (s.level p) e)
  obtain ⟨hraw, hqual, hedge, hdeb⟩ :=
    PointRun.afterTransition_fields s.pt[p] s.cfg.points[p] (s.level p) e
  rw [← hself] at hraw hqual hedge hdeb
  exact ⟨(h.raw p hp h5).trans hraw, (h.qual p hp h5).trans hqual,
    (h.lastEdge p hp h5).trans hedge, (h.debounce p).trans hdeb⟩

/-! ### A change of contact level -/

theorem exec_contactLevelChange (p : Fin 256) (level : Bool) (s : State) :
    exec (.contactLevelChange p level) s = .next (contactLevel (fieldPoint p) level s) := rfl

/-- The raw level of a point updated: the first thing a change of its contact level does (R5). -/
def State.setRaw (s : State) (p : Fin 268) (level : Bool) : State :=
  s.modPt p fun r => { r with raw := level }

theorem setRaw_pt_self (s : State) (p : Fin 268) (level : Bool) :
    (s.setRaw p level).pt[p] = { s.pt[p] with raw := level } := modPt_pt_self s p _

theorem setRaw_level (s : State) (p : Fin 268) (level : Bool) :
    (s.setRaw p level).level p = mapLevel s.cfg.points[p].sense level := by
  unfold State.level
  rw [setRaw_pt_self]
  rfl

theorem setRaw_modPt (s : State) (p : Fin 268) (level : Bool) (f : PointRun → PointRun) :
    (s.setRaw p level).modPt p f = s.modPt p fun r => f { r with raw := level } :=
  modPt_modPt s p _ f

section
variable {p : Fin 268} {level : Bool} {s : State}

theorem contactLevel_same (h : s.pt[p].raw = level) : contactLevel p level s = s := if_pos h

theorem contactLevel_unqualified (h : s.pt[p].raw ≠ level)
    (hq : s.operating = false ∨ s.cfg.points[p].kind.qualified = false) :
    contactLevel p level s = s.setRaw p level := by
  unfold contactLevel
  rw [if_neg h]
  exact if_neg (ne_true_of_eq_false (Bool.and_eq_false_iff.mpr hq))

/-- A change of level of a qualified point acts on its debounce timer. -/
theorem contactLevel_qualified (h : s.pt[p].raw ≠ level) (ho : s.operating = true)
    (hq : s.cfg.points[p].kind.qualified = true) :
    contactLevel p level s = debounceLevel p (s.setRaw p level) := by
  unfold contactLevel
  rw [if_neg h]
  exact if_pos (Bool.and_eq_true_iff.mpr ⟨ho, hq⟩)

/-- The first row of the table of R5: the timer starts. -/
theorem debounceLevel_starts (hd : s.pt[p].debounce = none) (hL : s.level p ≠ s.pt[p].qual)
    (hD : s.cfg.points[p].debounce ≠ 0) :
    debounceLevel p s = s.modPt p fun r => { r with debounce := some ⟨s.stamp, s.now⟩ } := by
  unfold debounceLevel
  rw [hd]
  exact (if_neg hL).trans (if_neg hD)

/-- With a debounce of 0 the transition is taken at the level change (R6). -/
theorem debounceLevel_qualifies (hd : s.pt[p].debounce = none) (hL : s.level p ≠ s.pt[p].qual)
    (hD : s.cfg.points[p].debounce = 0) : debounceLevel p s = qualify p s.stamp s := by
  unfold debounceLevel
  rw [hd]
  exact (if_neg hL).trans (if_pos hD)

/-- The second row of the table of R5: nothing beyond the raw level. -/
theorem debounceLevel_rests (hd : s.pt[p].debounce = none) (hL : s.level p = s.pt[p].qual) :
    debounceLevel p s = s := by
  unfold debounceLevel
  rw [hd]
  exact if_pos hL

/-- The third row of the table of R5: the timer is cancelled. -/
theorem debounceLevel_cancels (hd : s.pt[p].debounce.isSome = true) (hL : s.level p = s.pt[p].qual) :
    debounceLevel p s = s.modPt p fun r => { r with debounce := none } := by
  obtain ⟨d, hd⟩ := Option.isSome_iff_exists.mp hd
  unfold debounceLevel
  rw [hd]
  exact if_pos hL

end

end Sys2Proof.Machine

namespace Sys2Proof

open Sys2Proof.Machine

/-- Settles O22, row by row of the table of R5. -/
theorem contactLevelActsOnDebounce : Obligations.ContactLevelActsOnDebounce := by
  unfold Obligations.ContactLevelActsOnDebounce
  intro p level s _ q c r L
  have hself : (s.setRaw q level).pt[q] = { r with raw := level } := setRaw_pt_self s q level
  have hdeb : (s.setRaw q level).pt[q].debounce = r.debounce := by rw [hself]
  have hqual : (s.setRaw q level).pt[q].qual = r.qual := by rw [hself]
  have hL : (s.setRaw q level).level q = L := by
    rw [setRaw_level]
    simp only [L]
    cases c.sense <;> cases level <;> rfl
  rw [exec_contactLevelChange]
  refine ⟨fun h => by rw [contactLevel_same h],
    fun h hq => by rw [contactLevel_unqualified h hq, State.setRaw], fun h ho hq => ?_⟩
  rw [contactLevel_qualified h ho hq, ← hdeb, ← hqual, ← hL]
  refine ⟨fun hd hl => ?rests, fun hd hl hD => ?starts, fun hd hl hD => ?qualifies,
    fun hd hl => ?cancels⟩
  case rests => rw [debounceLevel_rests hd hl, State.setRaw]
  case starts =>
    rw [debounceLevel_starts hd hl hD, setRaw_modPt]
    rfl
  case qualifies =>
    obtain ⟨hraw, hlevel, hedge, hstopped⟩ :=
      qualify_point (p := q) p.isLt s.stamp (s.setRaw q level)
    refine ⟨_, congrArg _ (debounceLevel_qualifies hd hl hD), ?_, hlevel, hedge, hstopped⟩
    exact hraw.trans (by rw [hself])
  case cancels => rw [debounceLevel_cancels hd hl, setRaw_modPt]

end Sys2Proof

/-! Which of two time stamps is earlier (R66). -/
namespace Sys2Proof.Machine

section
variable {e t : TimeStamp}

theorem earlier_iff_of_day_eq (h : e.day = t.day) : e.earlier t = true ↔ e.dayTime < t.dayTime := by
  rw [TimeStamp.earlier, if_pos h, decide_eq_true_iff]

theorem earlier_iff_of_day_ne (h : e.day ≠ t.day) :
    e.earlier t = true ↔ (t.day - e.day).toNat ≤ 32767 := by
  rw [TimeStamp.earlier, if_neg h, decide_eq_true_iff]

end

/-- The days from `a` to a different day `b`, counted around the calendar, are at most `m` just when
`b` is reached from `a` by adding 1 to `m` days. -/
theorem toNat_sub_le_iff_exists_add {a b : Word} (hne : a ≠ b) (m : Nat) :
    (b - a).toNat ≤ m ↔ ∃ n : Nat, 1 ≤ n ∧ n ≤ m ∧ a + BitVec.ofNat 16 n = b := by
  constructor
  · intro hle
    have hpos : (b - a).toNat ≠ 0 := fun h0 =>
      hne (sub_eq_zero.mp (BitVec.eq_of_toNat_eq h0)).symm
    refine ⟨(b - a).toNat, Nat.one_le_iff_ne_zero.mpr hpos, hle, ?_⟩
    rw [BitVec.ofNat_toNat, BitVec.setWidth_eq, BitVec.add_comm, BitVec.sub_add_cancel]
  · rintro ⟨n, -, hn, rfl⟩
    rw [BitVec.add_comm, BitVec.add_sub_cancel, BitVec.toNat_ofNat]
    exact (Nat.mod_le n _).trans hn

/-- A difference of half the calendar is beyond the 32767 days within which a stamp is earlier. -/
theorem earlier_eq_false_of_half_calendar {e t : TimeStamp} (h : t.day = e.day + 32768#16) :
    e.earlier t = false := by
  have hdiff : t.day - e.day = 32768#16 := by
    rw [h, BitVec.add_comm, BitVec.add_sub_cancel]
  have hne : e.day ≠ t.day := by
    intro heq
    rw [heq, BitVec.sub_self] at hdiff
    exact absurd hdiff (by decide)
  rw [← Bool.not_eq_true, earlier_iff_of_day_ne hne, hdiff]
  decide

theorem earlier_irrefl (e : TimeStamp) : e.earlier e = false := by
  rw [← Bool.not_eq_true, earlier_iff_of_day_eq rfl]
  exact Nat.lt_irrefl _

end Sys2Proof.Machine

namespace Sys2Proof

open Sys2Proof.Machine

/-- Settles O59, clause by clause: days that differ are compared by the count from one to the other. -/
theorem earlierTimeStamp : Obligations.EarlierTimeStamp := by
  unfold Obligations.EarlierTimeStamp
  intro e t
  refine ⟨earlier_iff_of_day_eq, fun hne => ?_, earlier_eq_false_of_half_calendar, earlier_irrefl e⟩
  rw [earlier_iff_of_day_ne hne]
  exact toNat_sub_le_iff_exists_add hne 32767

end Sys2Proof

/-! The condition of an equation by its function code (R103). -/
namespace Sys2Proof.Machine

theorem condOf_eq_bit (f : Fin 16) (a b : Bool) :
    condOf f a b =
      (f.val / 2 ^ (2 * (if a then 1 else 0) + (if b then 1 else 0)) % 2 == 1) := by
  have hbit (x : Bool) : (if x then 1 else 0) = x.toNat := by cases x <;> rfl
  rw [hbit a, hbit b, condOf, Nat.testBit_eq_decide_div_mod_eq, beq_eq_decide]

/-! The four columns of the table of R103 are the four bits of the code. -/

section
variable (f : Fin 16)

theorem condOf_false_false : condOf f false false = f.val.testBit 0 := rfl
theorem condOf_false_true : condOf f false true = f.val.testBit 1 := rfl
theorem condOf_true_false : condOf f true false = f.val.testBit 2 := rfl
theorem condOf_true_true : condOf f true true = f.val.testBit 3 := rfl

end

end Sys2Proof.Machine

namespace Sys2Proof

open Sys2Proof.Machine

/-- Settles O58: bit 2A + B of the code by the reading of a bit as a remainder, and the sixteen functions
column by column of the table of R103. -/
theorem conditionFollowsFunctionCode : Obligations.ConditionFollowsFunctionCode := by
  unfold Obligations.ConditionFollowsFunctionCode
  intro f a b
  refine ⟨condOf_eq_bit f a b, ?_⟩
  match a, b with
  | false, false => simp only [condOf_false_false]; decide
  | false, true => simp only [condOf_false_true]; decide
  | true, false => simp only [condOf_true_false]; decide
  | true, true => simp only [condOf_true_true]; decide

end Sys2Proof

/-! The snap arithmetic (R140), and what an accepted or rejected minute pulse leaves (R141, R142). -/
namespace Sys2Proof.Machine

/-! ### The record of a command that the log has room for -/

/-- Where the log has room, a record handed to it fills nothing, so nothing is handed on. -/
theorem record_eq_put {s : State} (h : s.room 1) (b : RecordBody) : s.record b = s.put b := by
  have hlen : s.log.recs.length < 1023 := by unfold State.room at h; omega
  have hwrite : s.write b = s.put b := write_room hlen b
  rw [← hwrite]
  exact logged_eq (by rw [hwrite, put_pt])

/-- A record that the log has room for is the first of those that follow it. -/
theorem record_records {s : State} (h : s.room 1) (b : RecordBody) :
    s.records (s.record b) 0 s.stamp b := by
  have hlen : s.log.recs.length < 1023 := by unfold State.room at h; omega
  rw [record_eq_put h, State.records, put_log, EventLog.put_recs hlen]
  simp

/-- What is handed on later leaves a record where it is. -/
theorem State.records.kept {m i : Nat} {s t u : State} {stamp : TimeStamp} {b : RecordBody}
    (h : s.records t i stamp b) (hb : b.isGap = false) (k : Kept m t u) : s.records u i stamp b :=
  k.log.keeps h hb

/-! ### The states of point 260 -/

theorem PointState.eq_normal_of_bit {x : PointState} (h : x.bit = false) : x = .normal := by
  cases x with
  | normal => rfl
  | abnormal => exact absurd h (by decide)

theorem PointState.eq_abnormal_of_bit {x : PointState} (h : x.bit = true) : x = .abnormal := by
  cases x with
  | normal => exact absurd h (by decide)
  | abnormal => rfl

theorem sysCond_clock (s : State) :
    s.sysCond 4 = clockUnlocked s.clock.state s.cfg.settings.minutePulse := rfl

/-! ### The CLOCK record and point 260 (R137) -/

section
variable (step : Int) (reason : ClockReason) (s : State)

theorem recordClock_kept : Kept 256 s (recordClock step reason s) :=
  ((record_ripple s _).kept.mono (by omega)).trans (sysFollow_kept false 4 _)

theorem recordClock_qual :
    (recordClock step reason s).pt[sysPoint 4].qual.bit =
      clockUnlocked s.clock.state s.cfg.settings.minutePulse := by
  have hcond := (record_ripple s (.clock step reason s.clock.state)).kept.sysCond 4 (by decide)
  rw [recordClock, sysFollow_qual_self false (by decide), hcond, sysCond_clock]

theorem recordClock_records (h : s.room 1) :
    s.records (recordClock step reason s) 0 s.stamp (.clock step reason s.clock.state) :=
  (record_records h _).kept rfl (sysFollow_kept false 4 _)

end

/-! ### The clock made FREE (R142, R143) -/

section
variable (reason : ClockReason) (s : State)

theorem freeClock_clock : (freeClock reason s).clock = ⟨s.clock.stamp, .free, none⟩ :=
  (recordClock_kept 0 reason _).clock

theorem freeClock_qual (h : s.cfg.settings.minutePulse = true) :
    (freeClock reason s).pt[sysPoint 4].qual = .abnormal :=
  PointState.eq_abnormal_of_bit ((recordClock_qual 0 reason _).trans h)

/-- Point 260's own record follows the CLOCK record. -/
theorem freeClock_records (h : s.room 1) :
    s.records (freeClock reason s) 0 s.stamp (.clock 0 reason .free) :=
  recordClock_records 0 reason (s.setClock { s.clock with state := .free, watch := none }) h

end

/-! ### The snap arithmetic (R140) -/

section
variable {t : TimeStamp} {r e : Nat} (hr : t.dayTime % 600000 = r)
include hr

/-- Before the half minute the clock goes back to the minute begun. -/
theorem snap_before_half (h : r < 300000) : snap t = ⟨r, ⟨t.day, t.dayTime - r⟩, -(r : Int)⟩ := by
  subst hr
  unfold snap
  by_cases h0 : t.dayTime % 600000 = 0
  · simp [h0]
  · exact (if_neg h0).trans (if_pos h)

/-- From the half minute on the clock goes forward to the next minute, which may begin the next day. -/
theorem snap_from_half (h : ¬ r < 300000) (he : 600000 - r = e) :
    snap t =
      ⟨e, if t.dayTime + e < 864000000 then ⟨t.day, t.dayTime + e⟩ else ⟨t.day + 1, 0⟩, e⟩ := by
  subst hr he
  have h0 : t.dayTime % 600000 ≠ 0 := fun h0 => h (by omega)
  unfold snap
  refine (if_neg h0).trans ((if_neg h).trans ?_)
  by_cases hday : t.dayTime + (600000 - t.dayTime % 600000) < 864000000
  · exact (if_pos hday).trans (by rw [if_pos hday])
  · exact (if_neg hday).trans (by rw [if_neg hday])

end

/-! ### The minute pulse (R139, R141, R142) -/

theorem exec_minutePulse (s : State) : exec .minutePulse s = .next (takePulse s) := rfl

section
variable {s : State}

theorem takePulse_ignored (h : s.clock.state = .unset ∨ s.cfg.settings.minutePulse = false) :
    takePulse s = s := by
  unfold takePulse
  exact if_pos (by simpa using h)

variable (hstate : s.clock.state ≠ .unset) (hpulse : s.cfg.settings.minutePulse = true)
include hstate hpulse

/-- A pulse that is not ignored is judged by its error. -/
theorem takePulse_judged :
    takePulse s = if (snap s.clock.stamp).error ≤ s.cfg.settings.syncWindow then
      acceptPulse (snap s.clock.stamp) s else freeClock .reject s := by
  unfold takePulse
  exact if_neg (by simp [hstate, hpulse])

theorem takePulse_accepts (h : (snap s.clock.stamp).error ≤ s.cfg.settings.syncWindow) :
    takePulse s = acceptPulse (snap s.clock.stamp) s := by
  rw [takePulse_judged hstate hpulse, if_pos h]

theorem takePulse_rejects (h : s.cfg.settings.syncWindow < (snap s.clock.stamp).error) :
    takePulse s = freeClock .reject s := by
  rw [takePulse_judged hstate hpulse, if_neg (Nat.not_le.mpr h)]

end

section
variable (x : Snap) (s : State)

theorem acceptPulse_of_step_zero (h : x.step = 0) :
    acceptPulse x s = sysFollow false 4 (s.setClock ⟨x.stamp, .locked, some s.now⟩) := if_pos h

theorem acceptPulse_of_step_ne_zero (h : x.step ≠ 0) :
    acceptPulse x s = recordClock x.step .snap (s.setClock ⟨x.stamp, .locked, some s.now⟩) := if_neg h

theorem acceptPulse_clock : (acceptPulse x s).clock = ⟨x.stamp, .locked, some s.now⟩ := by
  by_cases h : x.step = 0
  · rw [acceptPulse_of_step_zero x s h]
    exact (sysFollow_kept false 4 _).clock
  · rw [acceptPulse_of_step_ne_zero x s h]
    exact (recordClock_kept x.step .snap _).clock

theorem acceptPulse_qual : (acceptPulse x s).pt[sysPoint 4].qual = .normal := by
  apply PointState.eq_normal_of_bit
  by_cases h : x.step = 0
  · rw [acceptPulse_of_step_zero x s h]
    exact sysFollow_qual_self false (by decide) _
  · rw [acceptPulse_of_step_ne_zero x s h]
    exact recordClock_qual x.step .snap _

theorem acceptPulse_records (hroom : s.room 1) (h : x.step ≠ 0) :
    s.records (acceptPulse x s) 0 x.stamp (.clock x.step .snap .locked) := by
  rw [acceptPulse_of_step_ne_zero x s h]
  exact recordClock_records x.step .snap (s.setClock ⟨x.stamp, .locked, some s.now⟩) hroom

end

end Sys2Proof.Machine

namespace Sys2Proof

open Sys2Proof.Machine

/-- Settles O36: the table of R140 is what the snap arithmetic forms, by the half of the minute in which the
pulse falls, and the pulse is accepted or rejected by that error. -/
theorem minutePulseSnaps : Obligations.MinutePulseSnaps := by
  unfold Obligations.MinutePulseSnaps
  intro s _ T r e step new
  have hsnap : snap s.clock.stamp = ⟨e, new, step⟩ := by
    by_cases hr : r < 300000
    · simp only [e, new, step, if_pos hr]
      exact snap_before_half rfl hr
    · simp only [e, new, step, if_neg hr]
      exact snap_from_half rfl hr rfl
  rw [exec_minutePulse]
  refine ⟨fun h => by rw [takePulse_ignored h], fun hstate hpulse => ⟨_, rfl, ?accepted, ?rejected⟩⟩
  case accepted =>
    intro hwindow
    rw [takePulse_accepts hstate hpulse (by rw [hsnap]; exact hwindow), hsnap]
    exact ⟨acceptPulse_clock _ s, acceptPulse_qual _ s, acceptPulse_records ⟨e, new, step⟩ s⟩
  case rejected =>
    intro hwindow
    rw [takePulse_rejects hstate hpulse (by rw [hsnap]; exact hwindow)]
    exact ⟨freeClock_clock _ s, freeClock_qual _ s hpulse, freeClock_records _ s⟩

end Sys2Proof

/-! What every command does, said once: its own effect (`Act`), the frames and replies around it (`Effect`),
and that each command is made of these. -/

namespace Sys2Proof

open Sys2Proof.Machine

/-- Settles O1, by the equation of `step` on a queue that is not empty. -/
theorem queueFrontRuns : Obligations.QueueFrontRuns := by
  unfold Obligations.QueueFrontRuns
  intro c rest s h
  unfold step
  rw [h]

end Sys2Proof

/-! Points, panels and outputs of which a part is kept. -/
namespace Sys2Proof.Machine

theorem fieldPoint_ne_sysPoint (p : Fin 256) (k : Fin 12) : fieldPoint p ≠ sysPoint k :=
  ne_sysPoint_of_lt (show (fieldPoint p).val < 256 from p.isLt) k

theorem of_true_of_false {b : Bool} {P : Prop} (h : b = true) (k : b = false) : P :=
  absurd (h.symm.trans k) Bool.noConfusion

theorem of_true_or {b : Bool} {P : Prop} (h : b = true ∨ P) (k : b = false) : P :=
  h.resolve_left fun e => of_true_of_false e k

/-- A point that twice keeps all but its active flag keeps it. -/
theorem PointRun.butActive_trans {x y z : PointRun} (h : { y with active := x.active } = x)
    (k : { z with active := y.active } = y) : { z with active := x.active } = x := by
  rw [← h, ← k]

theorem PanelRun.butCalls_trans {x y z : PanelRun}
    (h : { y with calls := x.calls, horn := x.horn } = x)
    (k : { z with calls := y.calls, horn := y.horn } = y) :
    { z with calls := x.calls, horn := x.horn } = x := by
  rw [← h, ← k]

theorem Tables.butEquations_trans {x y z : Tables}
    (h : { y with equations := x.equations } = x) (k : { z with equations := y.equations } = y) :
    { z with equations := x.equations } = x := by
  rw [← h, ← k]

section
variable {s : State}

theorem modPt_point {p : Fin 268} {f : PointRun → PointRun} {q : Fin 268} {P : PointRun → Prop}
    (hself : q = p → P (f s.pt[q])) (hother : P s.pt[q]) : P (s.modPt p f).pt[q] := by
  by_cases e : q = p
  · exact e ▸ (modPt_pt_self s q f).symm ▸ hself e
  · exact (modPt_pt_other s p f q e).symm ▸ hother

theorem modPan_panel {p : Fin 4} {f : PanelRun → PanelRun} {q : Fin 4} {P : PanelRun → Prop}
    (hself : q = p → P (f s.pan[q])) (hother : P s.pan[q]) : P (s.modPan p f).pan[q] := by
  by_cases e : q = p
  · exact e ▸ (modPan_pan_self s q f).symm ▸ hself e
  · exact (modPan_pan_other s p f q e).symm ▸ hother

theorem modOut_output {o : Fin 16} {f : OutputRun → OutputRun} {q : Fin 16} {P : OutputRun → Prop}
    (hself : q = o → P (f s.out[q])) (hother : P s.out[q]) : P (s.modOut o f).out[q] := by
  by_cases e : q = o
  · exact e ▸ (modOut_out_self s q f).symm ▸ hself e
  · exact (modOut_out_other s o f q e).symm ▸ hother

end

end Sys2Proof.Machine

/-! What the log, the news and the groups keep while changes are handed on. -/
namespace Sys2Proof.Machine

/-! ### The records held and the news -/

/-- Every record held stays where it is and as it is, but that a newest GAP record may count losses. -/
def EventLog.holdsOn (l l' : EventLog) : Prop :=
  l.recs.length ≤ l'.recs.length ∧
  ∀ (i : Nat) (r : LogRecord), l.recs[i]? = some r →
    ∃ r' : LogRecord, l'.recs[i]? = some r' ∧ (r' = r ∨ i + 1 = l.recs.length ∧ r.countsOn r')

theorem RecordBody.gap_of_isGap {b : RecordBody} (h : b.isGap = true) : ∃ n f l, b = .gap n f l := by
  cases b with
  | gap n f l => exact ⟨n, f, l, rfl⟩
  | _ => exact Bool.noConfusion h

theorem LogRecord.countsOn_isGap {x y : LogRecord} (h : x.countsOn y) : x.body.isGap = true ∧ y.body.isGap = true := by
  obtain ⟨_, _, b⟩ := x
  obtain ⟨_, _, b'⟩ := y
  cases b with
  | gap =>
    cases b' with
    | gap => exact ⟨rfl, rfl⟩
    | _ => exact False.elim h
  | _ => exact False.elim h

theorem LogRecord.countsOn_trans {x y z : LogRecord} (h : x.countsOn y) (k : y.countsOn z) : x.countsOn z := by
  obtain ⟨hx, hy⟩ := countsOn_isGap h
  obtain ⟨-, hz⟩ := countsOn_isGap k
  obtain ⟨_, _, b⟩ := x
  obtain ⟨_, _, b'⟩ := y
  obtain ⟨_, _, b''⟩ := z
  obtain ⟨n, f, l, rfl⟩ := RecordBody.gap_of_isGap hx
  obtain ⟨n', f', l', rfl⟩ := RecordBody.gap_of_isGap hy
  obtain ⟨n'', f'', l'', rfl⟩ := RecordBody.gap_of_isGap hz
  obtain ⟨h1, h2, h3, h4, h5⟩ := h
  obtain ⟨k1, k2, k3, k4, k5⟩ := k
  exact ⟨k1.trans h1, k2.trans h2, k3.trans h3, (le_min (Nat.min_le_left ..) h4).trans k4, k5 ∘ h5⟩

/-- A GAP record that counts a loss counts on. -/
theorem LogRecord.countsOn_countLoss {r : LogRecord} (h : r.body.isGap = true) (t : TimeStamp) :
    r.countsOn (r.countLoss t) := by
  obtain ⟨_, _, b⟩ := r
  obtain ⟨n, f, l, rfl⟩ := RecordBody.gap_of_isGap h
  exact ⟨rfl, rfl, rfl, le_min (Nat.min_le_left ..) ((Nat.min_le_right ..).trans (Nat.le_succ n)),
    fun _ => Nat.min_le_left ..⟩

theorem EventLog.holdsOn.refl (l : EventLog) : l.holdsOn l :=
  ⟨Nat.le_refl _, fun _ r h => ⟨r, h, .inl rfl⟩⟩

theorem EventLog.holdsOn.trans {l m n : EventLog} (h : l.holdsOn m) (k : m.holdsOn n) : l.holdsOn n := by
  obtain ⟨hlen, hrec⟩ := h
  obtain ⟨klen, krec⟩ := k
  refine ⟨Nat.le_trans hlen klen, fun i r hi => ?_⟩
  obtain ⟨r1, h1, c1⟩ := hrec i r hi
  obtain ⟨r2, h2, c2⟩ := krec i r1 h1
  refine ⟨r2, h2, ?_⟩
  have hlt : i < l.recs.length := (List.getElem?_eq_some_iff.mp hi).1
  rcases c1 with rfl | ⟨e1, c1⟩
  · exact c2.imp_right fun c2 => ⟨Nat.le_antisymm hlt (hlen.trans_eq c2.1.symm), c2.2⟩
  · rcases c2 with rfl | ⟨_, c2⟩
    · exact .inr ⟨e1, c1⟩
    · exact .inr ⟨e1, LogRecord.countsOn_trans c1 c2⟩

theorem EventLog.holdsOn_store (t : TimeStamp) (b : RecordBody) (l : EventLog) : l.holdsOn (l.store t b) := by
  refine ⟨(Nat.le_add_right ..).trans_eq List.length_append.symm, fun i r hi => ⟨r, ?_, .inl rfl⟩⟩
  exact (List.getElem?_append_left (List.getElem?_eq_some_iff.mp hi).1).trans hi

/-- A log whose newest record counts on. -/
theorem EventLog.holdsOn_newest {recs : List LogRecord} {x y : LogRecord} (h : x.countsOn y) (n m : Word) :
    EventLog.holdsOn ⟨recs ++ [x], n⟩ ⟨recs ++ [y], m⟩ := by
  have hlen : (recs ++ [x]).length = (recs ++ [y]).length := by
    rw [List.length_append, List.length_append]
    rfl
  refine ⟨Nat.le_of_eq hlen, fun i r (hi : (recs ++ [x])[i]? = some r) => ?_⟩
  show ∃ r', (recs ++ [y])[i]? = some r' ∧ (r' = r ∨ i + 1 = (recs ++ [x]).length ∧ r.countsOn r')
  by_cases hlt : i < recs.length
  · exact ⟨r, (List.getElem?_append_left hlt).trans ((List.getElem?_append_left hlt).symm.trans hi), .inl rfl⟩
  · have hi' := (List.getElem?_eq_some_iff.mp hi).1
    rw [List.length_append] at hi'
    obtain rfl : i = recs.length := Nat.le_antisymm (Nat.le_of_lt_succ hi') (Nat.le_of_not_lt hlt)
    obtain rfl : x = r := Option.some.inj (List.getElem?_concat_length.symm.trans hi)
    exact ⟨y, List.getElem?_concat_length, .inr ⟨by rw [List.length_append]; rfl, h⟩⟩

theorem EventLog.holdsOn_countLoss (t : TimeStamp) {l : EventLog} (h : l.newestIsGap = true) :
    l.holdsOn (l.countLoss t) := by
  obtain ⟨recs, n⟩ := l
  unfold EventLog.newestIsGap at h
  unfold EventLog.countLoss
  cases hx : recs.getLast? with
  | none => exact .refl _
  | some x =>
    obtain ⟨ys, rfl⟩ := List.getLast?_eq_some_iff.mp hx
    rw [show (EventLog.mk (ys ++ [x]) n).recs.getLast? = some x from hx] at h
    show EventLog.holdsOn _ ⟨(ys ++ [x]).dropLast ++ [x.countLoss t], n⟩
    rw [List.dropLast_concat]
    exact holdsOn_newest (LogRecord.countsOn_countLoss h t) n n

theorem EventLog.holdsOn_put (t : TimeStamp) (b : RecordBody) (l : EventLog) : l.holdsOn (l.put t b) := by
  unfold EventLog.put
  split
  · exact holdsOn_store t b l
  split
  next hg => exact holdsOn_countLoss t hg
  next => exact holdsOn_store t _ l

theorem logGrows.holdsOn {t : TimeStamp} {l l' : EventLog} (h : logGrows t l l') : l.holdsOn l' := by
  obtain ⟨bs, -, rfl⟩ := h
  induction bs generalizing l with
  | nil => exact .refl l
  | cons b bs ih => exact (EventLog.holdsOn_put t b l).trans ih

/-- Every flag that is set stays set. -/
def News.stands (a b : News) : Prop :=
  (a.alert = true → b.alert = true) ∧ (a.trip = true → b.trip = true) ∧ (a.mode = true → b.mode = true) ∧
    (a.fault = true → b.fault = true)

theorem News.stands.trans {a b c : News} (h : a.stands b) (k : b.stands c) : a.stands c :=
  ⟨k.1 ∘ h.1, k.2.1 ∘ h.2.1, k.2.2.1 ∘ h.2.2.1, k.2.2.2 ∘ h.2.2.2⟩

theorem News.stands_set (a : News) (k : NewsKind) : a.stands (a.set k) :=
  match k with
  | .alert => ⟨fun _ => rfl, id, id, id⟩
  | .trip => ⟨id, fun _ => rfl, id, id⟩
  | .mode => ⟨id, id, fun _ => rfl, id⟩
  | .fault => ⟨id, id, id, fun _ => rfl⟩

/-- Every news flag that is set stays set. -/
def newsStand (x y : Vector News 9) : Prop := ∀ u : Fin 9, x[u].stands y[u]

theorem newsStand.refl (x : Vector News 9) : newsStand x x := fun _ => ⟨id, id, id, id⟩

theorem newsStand.trans {x y z : Vector News 9} (h : newsStand x y) (k : newsStand y z) : newsStand x z :=
  fun u => (h u).trans (k u)

theorem newsStand_setNews (s : State) (u : Fin 9) (k : NewsKind) : newsStand s.news (s.setNews u k).news := by
  intro q
  by_cases e : q = u
  · exact e ▸ (modNews_news_self s q fun n => n.set k) ▸ s.news[q].stands_set k
  · exact (modNews_news_other s u (fun n => n.set k) q e) ▸ newsStand.refl s.news q

theorem move_news {s t : State} (m : Move s t) : newsStand s.news t.news := by
  cases m with
  | trip m =>
    cases m with
    | write b _ => exact (write_news s b).symm ▸ newsStand.refl s.news
    | news u k => exact newsStand_setNews s u k
    | eqn k f _ | install k e _ | out o f _ => exact newsStand.refl s.news
  | active p v | win w x | calls p new | chime p _ | grp g f _ => exact newsStand.refl s.news

theorem Ripple.newsStand {s t : State} (h : Ripple s t) : newsStand s.news t.news := by
  induction h with
  | refl => exact .refl _
  | tail _ m ih => exact ih.trans (move_news m)

/-! ### The groups -/

theorem move_groupLaw {s t : State} (m : Move s t) (hs : s.groupLaw) : t.groupLaw := by
  cases m with
  | trip m =>
    obtain ⟨-, -, -, hgrp, -⟩ := TripRipple.kept (.single m)
    exact fun g => hgrp ▸ hs g
  | grp g f hf =>
    intro q
    by_cases e : q = g
    · exact e ▸ (modGrp_grp_self s q f).symm ▸ (e ▸ hf) (hs q)
    · exact (modGrp_grp_other s g f q e).symm ▸ hs q
  | active p v | win w x | calls p new | chime p _ => exact hs

theorem Ripple.groupLaw {s t : State} (h : Ripple s t) (hs : s.groupLaw) : t.groupLaw := by
  induction h with
  | refl => exact hs
  | tail _ m ih => exact move_groupLaw m ih

/-! ### Steps -/

/-- A step is one clock unit on an empty queue, or the command at the front of the queue. -/
theorem step_cases {s t : State} (h : step s = .next t) :
    s.pending = [] ∧ t = tick s ∨
    ∃ (c : Instr) (rest : List Instr), s.pending = c :: rest ∧ exec c { s with pending := rest } = .next t := by
  unfold step at h
  cases hq : s.pending with
  | nil =>
    rw [hq] at h
    exact .inl ⟨rfl, (Host.Outcome.next.inj h).symm⟩
  | cons c rest =>
    rw [hq] at h
    exact .inr ⟨c, rest, rfl, h⟩

theorem tick_dayTimeLaw {s : State} (hs : s.dayTimeLaw) : (tick s).dayTimeLaw := by
  show s.clock.stamp.tick.dayTime ≤ 863999999
  unfold TimeStamp.tick
  simp only [State.dayTimeLaw, Config.unitsPerDay] at *
  split
  · dsimp only; omega
  · exact Nat.zero_le _

end Sys2Proof.Machine

/-! What a stretch of a command leaves as it was, by the rights of the command, and the laws that it keeps. -/
namespace Sys2Proof

open Sys2Proof.Machine

/-- The command may change the qualification of point `p`: of a level change and a debounce expiry, its own
point's alone. -/
def Instr.mayQualify (c : Instr) (p : Fin 268) : Prop :=
  c.setsPoints = true ∧ ∀ (q : Fin 256) (v : Bool),
    c = .contactLevelChange q v ∨ c = .debounceExpiry q → p = fieldPoint q

/-- The command may change panel `p` but for its call set and horn: a KEY reply or its miss its own alone. -/
def Instr.mayPanel (c : Instr) (p : Fin 4) : Prop :=
  c.setsPanels = true ∧ ∀ (q : Fin 4) (bs : List Byte), c = .keyReply q bs ∨ c = .keyReplyMiss q → p = q

/-- The command is of one point, or of one panel, of its own. -/
noncomputable def Instr.ofOne (c : Instr) : Bool :=
  [.contactLevelChange 0 false, .debounceExpiry 0, .keyReply 0 [], .keyReplyMiss 0].any fun d : Instr =>
    d.ctorIdx == c.ctorIdx

theorem Instr.mayQualify_all {c : Instr} (hc : c.setsPoints = true) (h : c.ofOne = false) (p : Fin 268) :
    c.mayQualify p :=
  ⟨hc, fun _ _ k => of_true_of_false (k.elim (congrArg Instr.ofOne) (congrArg Instr.ofOne)) h⟩

theorem Instr.mayPanel_all {c : Instr} (hc : c.setsPanels = true) (h : c.ofOne = false) (p : Fin 4) :
    c.mayPanel p :=
  ⟨hc, fun _ _ k => of_true_of_false (k.elim (congrArg Instr.ofOne) (congrArg Instr.ofOne)) h⟩

end Sys2Proof

namespace Sys2Proof.Machine

/-- From `s` to `t` command `c` keeps what it does not own, and the laws that each single change keeps. -/
structure Within (c : Instr) (s t : State) : Prop where
  now : t.now = s.now
  pending : t.pending = s.pending
  clock : c.setsClock = false → t.clock = s.clock
  store : c.setsStore = false → t.store = s.store
  service : c.setsService = false → t.service = s.service ∧ t.settle = s.settle
  draws : c.drawsFree = false → t.draws = s.draws
  frameClock : c.starts = false → c ≠ .frameClockPeriod → t.frameClock = s.frameClock
  straps : t.link.straps = s.link.straps
  station : c.starts = false → t.link.station = s.link.station
  link : c.setsLink = false → t.link = s.link
  cfg : c.puts = false → c.starts = false → { t.cfg with equations := s.cfg.equations } = s.cfg
  raw : ∀ p : Fin 256, (∀ v, c ≠ .contactLevelChange p v) → t.pt[fieldPoint p].raw = s.pt[fieldPoint p].raw
  pt : ∀ p : Fin 256, ¬ c.mayQualify (fieldPoint p) →
    { t.pt[fieldPoint p] with active := s.pt[fieldPoint p].active } = s.pt[fieldPoint p]
  forces : c.setsForces = false → t.forces = s.forces
  decay : c.setsDecay = false → t.decay = s.decay
  un : c.setsUnits = false → t.un = s.un
  pan : ∀ p : Fin 4, ¬ c.mayPanel p →
    { t.pan[p] with calls := s.pan[p].calls, horn := s.pan[p].horn } = s.pan[p]
  manual : c.setsManual = false → ∀ o : Fin 16, t.out[o].manual = s.out[o].manual
  readback : ∀ o : Fin 16, (∀ v, c ≠ .readbackChange o v) → t.out[o].readback = s.out[o].readback
  fault : c.setsFaults = false → ∀ o : Fin 16, t.out[o].fault = s.out[o].fault
  records : c.removesRecords = false → s.log.holdsOn t.log
  news : c.clearsNews = false → newsStand s.news t.news
  logLaw : s.log.law → t.log.law
  groupLaw : s.groupLaw → t.groupLaw
  dayTimeLaw : s.dayTimeLaw → t.dayTimeLaw

section
variable {c : Instr} {a s t u : State}

theorem Within.start (s : State) : Within c s s :=
  ⟨rfl, rfl, fun _ => rfl, fun _ => rfl, fun _ => ⟨rfl, rfl⟩, fun _ => rfl, fun _ _ => rfl, rfl, fun _ => rfl,
    fun _ => rfl, fun _ _ => rfl, fun _ _ => rfl, fun _ _ => rfl, fun _ => rfl, fun _ => rfl, fun _ => rfl,
    fun _ _ => rfl, fun _ _ => rfl, fun _ _ => rfl, fun _ _ => rfl, fun _ => .refl _, fun _ => .refl _, id, id, id⟩

theorem Within.trans (h : Within c s t) (k : Within c t u) : Within c s u where
  now := k.now.trans h.now
  pending := k.pending.trans h.pending
  clock hc := (k.clock hc).trans (h.clock hc)
  store hc := (k.store hc).trans (h.store hc)
  service hc := ⟨(k.service hc).1.trans (h.service hc).1, (k.service hc).2.trans (h.service hc).2⟩
  draws hc := (k.draws hc).trans (h.draws hc)
  frameClock hc hf := (k.frameClock hc hf).trans (h.frameClock hc hf)
  straps := k.straps.trans h.straps
  station hc := (k.station hc).trans (h.station hc)
  link hc := (k.link hc).trans (h.link hc)
  cfg hp hc := Tables.butEquations_trans (h.cfg hp hc) (k.cfg hp hc)
  raw p hc := (k.raw p hc).trans (h.raw p hc)
  pt p hc := PointRun.butActive_trans (h.pt p hc) (k.pt p hc)
  forces hc := (k.forces hc).trans (h.forces hc)
  decay hc := (k.decay hc).trans (h.decay hc)
  un hc := (k.un hc).trans (h.un hc)
  pan p hc := PanelRun.butCalls_trans (h.pan p hc) (k.pan p hc)
  manual hc o := (k.manual hc o).trans (h.manual hc o)
  readback o hc := (k.readback o hc).trans (h.readback o hc)
  fault hc o := (k.fault hc o).trans (h.fault hc o)
  records hc := (h.records hc).trans (k.records hc)
  news hc := (h.news hc).trans (k.news hc)
  logLaw := k.logLaw ∘ h.logLaw
  groupLaw := k.groupLaw ∘ h.groupLaw
  dayTimeLaw := k.dayTimeLaw ∘ h.dayTimeLaw

theorem Within.ite {p : Prop} [Decidable p] (h : p → Within c a s) (k : ¬ p → Within c a t) :
    Within c a (if p then s else t) := by
  split
  next hp => exact h hp
  next hp => exact k hp

theorem Within.each {n : Nat} {f : Fin n → State → State} (h : ∀ i s, Within c s (f i s)) (s : State) :
    Within c s (each n f s) :=
  each_rel Within.start (fun _ _ _ => Within.trans) h s

theorem Within.foldl {α : Type} {f : State → α → State} (h : ∀ s i, Within c s (f s i)) (l : List α)
    (s : State) : Within c s (l.foldl f s) :=
  foldl_rel Within.start (fun _ _ _ => Within.trans) h l s

theorem Within.countEach {α : Type} {f : α → State → State × Bool} (h : ∀ i s, Within c s (f i s).1)
    (l : List α) (s : State) : Within c s (countEach l f s).1 :=
  countEach_rel Within.start (fun _ _ _ => Within.trans) h l s

/-- What keeps all but system points, active flags, call sets and horns is within every command's rights. -/
theorem Kept.within {m : Nat} (h : Kept m s t) (hm : 256 ≤ m) (hn : newsStand s.news t.news)
    (hg : s.groupLaw → t.groupLaw) : Within c s t where
  now := h.now
  pending := h.pending
  clock _ := h.clock
  store _ := h.store
  service _ := ⟨h.service, h.settle⟩
  draws _ := h.draws
  frameClock _ _ := h.frameClock
  straps := congrArg LinkRun.straps h.link
  station _ := congrArg LinkRun.station h.link
  link _ := h.link
  cfg _ _ := h.cfg
  raw p _ := (congrArg PointRun.raw (h.pt _ (Nat.lt_of_lt_of_le p.isLt hm) (fieldPoint_ne_sysPoint p 5)) :)
  pt p _ := h.pt _ (Nat.lt_of_lt_of_le p.isLt hm) (fieldPoint_ne_sysPoint p 5)
  forces _ := h.forces
  decay _ := h.decay
  un _ := h.un
  pan p _ := h.pan p
  manual _ o := (h.out o).1
  readback o _ := (h.out o).2.1
  fault _ o := (h.out o).2.2
  records _ := h.log.holdsOn
  news _ := hn
  logLaw := h.log.law
  groupLaw := hg
  dayTimeLaw hd := (congrArg (fun x : HallClock => x.stamp.dayTime ≤ 863999999) h.clock).mpr hd

theorem Ripple.within (h : Ripple s t) : Within c s t := h.kept.within (by decide) h.newsStand h.groupLaw

theorem Within.ripple (h : Within c a s) (k : Ripple s t) : Within c a t := h.trans k.within

end

/-! ### Single changes -/

section
variable {c : Instr} (s : State)

theorem Within.write (b : RecordBody) (hb : b.isGap = false) : Within c s (s.write b) :=
  (kept_write s b hb).within (by decide) ((write_news s b).symm ▸ .refl s.news) fun h g => write_grp s b ▸ h g

theorem Within.put (b : RecordBody) (hb : b.isGap = false) : Within c s (s.put b) :=
  (kept_put 256 s b hb).within (Nat.le_refl _) (.refl _) id

theorem Within.sys (k : Fin 12) (v : Bool) : Within c s (s.setSys k v) :=
  (kept_setSys k v s).within (Nat.le_refl _) (.refl _) id

theorem Within.setNews (u : Fin 9) (k : NewsKind) : Within c s (s.setNews u k) :=
  Ripple.within (.single (.trip (.news s u k)))

theorem Within.points (x : Vector PointRun 268)
    (hraw : ∀ p : Fin 256, (∀ v, c ≠ .contactLevelChange p v) → x[fieldPoint p].raw = s.pt[fieldPoint p].raw)
    (hpt : ∀ p : Fin 256, ¬ c.mayQualify (fieldPoint p) →
      { x[fieldPoint p] with active := s.pt[fieldPoint p].active } = s.pt[fieldPoint p]) :
    Within c s { s with pt := x } := { Within.start s with raw := hraw, pt := hpt }

theorem Within.modPt {p : Fin 268} (f : PointRun → PointRun) (hc : c.mayQualify p) (hf : ∀ r, (f r).raw = r.raw) :
    Within c s (s.modPt p f) :=
  .points s _ (fun q _ => modPt_point (P := fun r => r.raw = s.pt[fieldPoint q].raw) (fun _ => hf _) rfl)
    fun q hq => modPt_point (P := fun r => { r with active := s.pt[fieldPoint q].active } = s.pt[fieldPoint q])
      (fun e => absurd hc (e ▸ hq)) rfl

theorem Within.units (x : Vector UnitRun 9) (hc : c.setsUnits = true) : Within c s { s with un := x } :=
  { Within.start s with un := of_true_of_false hc }

theorem Within.modUn (u : Fin 9) (f : UnitRun → UnitRun) (hc : c.setsUnits = true) : Within c s (s.modUn u f) :=
  .units s _ hc

theorem Within.windows (x : Vector WindowState 192) : Within c s { s with win := x } := { Within.start s with }

theorem Within.panels (x : Vector PanelRun 4) (hx : ∀ p : Fin 4, ¬ c.mayPanel p →
    { x[p] with calls := s.pan[p].calls, horn := s.pan[p].horn } = s.pan[p]) : Within c s { s with pan := x } :=
  { Within.start s with pan := hx }

theorem Within.modPan {p : Fin 4} (f : PanelRun → PanelRun) (hc : c.mayPanel p) : Within c s (s.modPan p f) :=
  .panels s _ fun q hq => modPan_panel
    (P := fun r => { r with calls := s.pan[q].calls, horn := s.pan[q].horn } = s.pan[q])
    (fun e => absurd hc (e ▸ hq)) rfl

/-- A change of the call set and the horn of a panel. -/
theorem Within.sound (p : Fin 4) (f : PanelRun → PanelRun)
    (hf : ∀ r : PanelRun, { f r with calls := r.calls, horn := r.horn } = r) : Within c s (s.modPan p f) :=
  .panels s _ fun q _ => modPan_panel
    (P := fun r => { r with calls := s.pan[q].calls, horn := s.pan[q].horn } = s.pan[q]) (fun _ => hf _) rfl

theorem Within.hush (p : Fin 4) : Within c s (silencePanel p s) := .sound s p _ fun _ => rfl

theorem Within.groups (x : Vector GroupRun 16) (hx : s.groupLaw → ∀ g : Fin 16, x[g].law) :
    Within c s { s with grp := x } := { Within.start s with groupLaw := hx }

theorem Within.setForces (x : List ForceEntry) (hc : c.setsForces = true) : Within c s (s.setForces x) :=
  { Within.start s with forces := of_true_of_false hc }

theorem Within.setDecay (x : Option Nat) (hc : c.setsDecay = true) : Within c s { s with decay := x } :=
  { Within.start s with decay := of_true_of_false hc }

theorem Within.setClock (x : HallClock) (hc : c.setsClock = true)
    (hx : s.dayTimeLaw → x.stamp.dayTime ≤ 863999999) : Within c s (s.setClock x) :=
  { Within.start s with clock := of_true_of_false hc, dayTimeLaw := hx }

theorem Within.setStore (x : StoreRun) (hc : c.setsStore = true) : Within c s (s.setStore x) :=
  { Within.start s with store := of_true_of_false hc }

theorem Within.setService (x : Service) (y : Option Nat) (hc : c.setsService = true) :
    Within c s { s with service := x, settle := y } := { Within.start s with service := of_true_of_false hc }

theorem Within.setDraws (n : Nat) (hc : c.drawsFree = true) : Within c s { s with draws := n } :=
  { Within.start s with draws := of_true_of_false hc }

theorem Within.setFrameClock (x : FrameClock) (hc : c.starts = true ∨ c = .frameClockPeriod) :
    Within c s { s with frameClock := x } :=
  { Within.start s with frameClock := fun hs hne => absurd (hc.resolve_left fun e => of_true_of_false e hs) hne }

theorem Within.setLink (x : LinkRun) (hc : c.setsLink = true) (hstraps : x.straps = s.link.straps)
    (hstation : c.starts = true ∨ x.station = s.link.station) : Within c s (s.setLink x) :=
  { Within.start s with straps := hstraps, link := of_true_of_false hc, station := of_true_or hstation }

theorem Within.setCfg (x : Tables) (hc : c.puts = true ∨ c.starts = true) : Within c s (s.setCfg x) :=
  { Within.start s with cfg := fun hp hs => hc.elim (fun e => of_true_of_false e hp) fun e => of_true_of_false e hs }

theorem Within.equations (x : Vector EquationRun 32) : Within c s { s with eqn := x } := { Within.start s with }

theorem Within.modEqn (k : Fin 32) (f : EquationRun → EquationRun) : Within c s (s.modEqn k f) := .equations s _

theorem Within.outputs (x : Vector OutputRun 16)
    (hm : c.setsManual = true ∨ ∀ o : Fin 16, x[o].manual = s.out[o].manual)
    (hr : ∀ o : Fin 16, (∀ v, c ≠ .readbackChange o v) → x[o].readback = s.out[o].readback)
    (hf : c.setsFaults = true ∨ ∀ o : Fin 16, x[o].fault = s.out[o].fault) : Within c s { s with out := x } :=
  { Within.start s with manual := of_true_or hm, readback := hr, fault := of_true_or hf }

theorem Within.modOut (o : Fin 16) (f : OutputRun → OutputRun)
    (hm : c.setsManual = true ∨ ∀ r, (f r).manual = r.manual)
    (hr : (∃ v, c = .readbackChange o v) ∨ ∀ r, (f r).readback = r.readback)
    (hf : c.setsFaults = true ∨ ∀ r, (f r).fault = r.fault) : Within c s (s.modOut o f) :=
  .outputs s _
    (hm.imp_right fun h q => modOut_output (P := fun r => r.manual = s.out[q].manual) (fun _ => h _) rfl)
    (fun q hq => modOut_output (P := fun r => r.readback = s.out[q].readback)
      (fun e => hr.elim (fun ⟨v, hv⟩ => absurd (e ▸ hv) (hq v)) fun h => h _) rfl)
    (hf.imp_right fun h q => modOut_output (P := fun r => r.fault = s.out[q].fault) (fun _ => h _) rfl)

theorem Within.release (k : Nat) (hc : c.removesRecords = true) : Within c s { s with log := s.log.release k } :=
  { Within.start s with records := of_true_of_false hc, logLaw := fun h => EventLog.law_release h k }

theorem Within.emptied (hc : c.removesRecords = true) : Within c s { s with log := ⟨[], 0⟩ } :=
  { Within.start s with records := of_true_of_false hc, logLaw := fun _ => EventLog.law_empty }

theorem Within.setNewsTable (x : Vector News 9) (hc : c.clearsNews = true) : Within c s { s with news := x } :=
  { Within.start s with news := of_true_of_false hc }

end

/-! ### Records and system points -/

section
variable {c : Instr}

theorem loggedAs_within {f : State → State} {s : State} (cause : Cause) (h : Within c s (f s)) :
    Within c s (loggedAs cause f s) :=
  .ite (fun _ => h) fun _ => h.ripple (handLog_ripple cause (f s))

theorem logged_within {f : State → State} {s : State} (h : Within c s (f s)) : Within c s (logged f s) :=
  loggedAs_within .system h

theorem record_within (s : State) (b : RecordBody) (hb : b.isGap = false) : Within c s (s.record b) :=
  logged_within (f := fun s => s.write b) (.write s b hb)

theorem sysTransition_within (startup : Bool) (k : Fin 12) (v : Bool) (s : State) :
    Within c s (sysTransition startup k v s) := by
  have hsys : Within c s (s.setSys k v) := .sys s k v
  obtain ⟨b, hb, h⟩ := sysTransition_ripple startup k v s
  split at h
  · exact (hsys.trans (.put _ b hb)).ripple h
  · exact hsys.ripple h

theorem sysFollow_within (startup : Bool) (k : Fin 12) (s : State) : Within c s (sysFollow startup k s) :=
  .ite (fun _ => .start s) fun _ => sysTransition_within startup k _ s

theorem Within.follow {a s : State} (h : Within c a s) (k : Fin 12) : Within c a (sysFollow false k s) :=
  h.trans (sysFollow_within false k s)

end

/-- What a request may change, the byte that completes its frame may change too. -/
theorem Within.byByte {d : Instr} {b : Byte} (hd : d.request.isSome = true ∨ ∃ r, d = .setTime true r)
    {s t : State} (h : Within d s t) : Within (.stationLinkByte b) s t where
  now := h.now
  pending := h.pending
  clock := of_true_of_false rfl
  store := of_true_of_false rfl
  service := of_true_of_false rfl
  draws := of_true_of_false rfl
  frameClock := of_true_of_false rfl
  straps := h.straps
  station := of_true_of_false rfl
  link := of_true_of_false rfl
  cfg _ := of_true_of_false rfl
  raw p _ := h.raw p fun _ e => hd.elim (fun hd => of_true_of_false hd (congrArg (·.request.isSome) e))
    fun ⟨_, hd⟩ => of_true_of_false (congrArg Instr.setsClock hd) (congrArg Instr.setsClock e)
  pt _ hp := absurd (Instr.mayQualify_all rfl rfl _) hp
  forces := of_true_of_false rfl
  decay := of_true_of_false rfl
  un := of_true_of_false rfl
  pan _ hp := absurd (Instr.mayPanel_all rfl rfl _) hp
  manual := of_true_of_false rfl
  readback o _ := h.readback o fun _ e => hd.elim (fun hd => of_true_of_false hd (congrArg (·.request.isSome) e))
    fun ⟨_, hd⟩ => of_true_of_false (congrArg Instr.setsClock hd) (congrArg Instr.setsClock e)
  fault := of_true_of_false rfl
  records := of_true_of_false rfl
  news := of_true_of_false rfl
  logLaw := h.logLaw
  groupLaw := h.groupLaw
  dayTimeLaw := h.dayTimeLaw

end Sys2Proof.Machine

/-! The operations of the commands, each within the rights of a command that does it. -/
namespace Sys2Proof.Machine

/-! ### Units -/

section
variable {c : Instr} (hc : c.setsUnits = true)
include hc

theorem changeMode_within (u : Fin 9) (new : Mode) (s : State) : Within c s (changeMode u new s) := by
  unfold changeMode
  extract_lets old s1
  have h0 : Within c s (s.modUn u fun r => { r with current := new }) := .modUn s u _ hc
  have h1 : Within c s s1 := h0.trans (logged_within ((Within.write _ _ rfl).trans (.setNews _ u .mode)))
  exact h1.ripple ((evalUnit_ripple u .mode s1).trans (handTerm_ripple (.mode u) _ _))

theorem redecode_within (u : Fin 9) (s : State) : Within c s (redecode u s) := by
  unfold redecode
  extract_lets d s'
  have h' : Within c s s' := .modUn s u _ hc
  have htarget : Within c s (s'.modUn u fun r => { r with target := some d, settle := some s'.now }) :=
    h'.trans (.modUn s' u _ hc)
  exact .ite (fun _ => .start s) fun _ => .ite (fun _ => htarget) fun _ =>
    .ite (fun _ => h') fun _ => .ite (fun _ => h'.trans (changeMode_within hc u d s')) fun _ =>
      htarget.trans (changeMode_within hc u .changeover _)

theorem endChangeover_within (u : Fin 9) (s : State) : Within c s (endChangeover u s) :=
  (Within.modUn s u _ hc).trans (changeMode_within hc u _ _)

theorem reblock_within (us : List (Fin 9)) (s : State) : Within c s (reblock us s) := by
  unfold reblock
  extract_lets changed flagged told
  have hflag : Within c s flagged := Within.foldl (fun s u => .modUn s u _ hc) changed s
  have htell : Within c flagged told := Within.foldl (fun s u => (tripUnit_ripple _ u s).within) changed flagged
  exact (hflag.trans htell).follow 10

theorem handEffective_within (p : Fin 268) (t : TimeStamp) (s : State) : Within c s (handEffective p t s) := by
  unfold handEffective
  extract_lets termed decoded keyed
  have hterm : Within c s termed := (handTerm_ripple _ _ _).within
  have hdecode : Within c s decoded :=
    hterm.trans (Within.each (fun u s => .ite (fun _ => redecode_within hc u s) fun _ => .start s) termed)
  exact .ite (fun _ => hdecode) fun _ => hdecode.trans (reblock_within hc keyed decoded)

end

/-! ### Points and forces -/

section
variable {c : Instr} {p : Fin 268} (hp : c.mayQualify p)
include hp

theorem chatterCheck_within (s : State) : Within c s (chatterCheck p s) := by
  unfold chatterCheck
  extract_lets k r s1 s2
  have h1 : Within c s s1 := .modPt s _ hp fun _ => rfl
  have h2 : Within c s s2 := .modPt s _ hp fun _ => rfl
  exact .ite (fun _ => .ite (fun _ => h1.trans (record_within s1 _ rfl)) fun _ => h1) fun _ =>
    .ite (fun _ => .ite (fun _ => h2.trans (record_within s2 _ rfl)) fun _ => h2) fun _ => .start s

theorem decayPoint_within (s : State) : Within c s (decayPoint p s) :=
  have h1 : Within c s (s.modPt p fun r => { r with score := r.score - 1 }) := .modPt s _ hp fun _ => rfl
  .ite (fun _ => (h1.trans (chatterCheck_within hp _)).ripple (evalActive_ripple p .chatter _ _)) fun _ => .start s

variable (hu : c.setsUnits = true)
include hu

theorem qualifyTo_within (w : Option (Fin 192)) (g : Option (Fin 16)) (e : TimeStamp) (s : State) :
    Within c s (qualifyTo w g p e s) := by
  unfold qualifyTo
  extract_lets k q was edged logged checked counted
  have hedged : Within c s edged := .modPt s _ hp fun _ => rfl
  have hlogged : Within c s logged := hedged.trans (.ite (fun _ => record_within edged _ rfl) fun _ => .start edged)
  have hchecked : Within c s checked := hlogged.trans (chatterCheck_within hp logged)
  have hcounted : Within c s counted :=
    hchecked.trans (.ite (fun _ => .modPt checked _ hp fun _ => rfl) fun _ => .start checked)
  exact .ite (fun _ => hcounted) fun _ =>
    (hcounted.trans (handEffective_within hu p e counted)).ripple (evalActiveTo_ripple _ _ _ _ _ _)

theorem qualify_within (e : TimeStamp) (s : State) : Within c s (qualify p e s) := qualifyTo_within hp hu _ _ e s

theorem debounceLevel_within (s : State) : Within c s (debounceLevel p s) := by
  unfold debounceLevel
  split
  · exact .ite (fun _ => .start s) fun _ => .ite (fun _ => qualify_within hp hu _ s) fun _ =>
      .modPt s _ hp fun _ => rfl
  · exact .ite (fun _ => .modPt s _ hp fun _ => rfl) fun _ => .start s

theorem reseed_within (w : Option (Fin 192)) (g : Option (Fin 16)) (s : State) : Within c s (reseed w g p s) := by
  unfold reseed
  extract_lets t old q s1 s2 s3
  have h1 : Within c s s1 := .modPt s _ hp fun _ => rfl
  have h2 : Within c s s2 := h1.trans (.ite (fun _ => record_within s1 _ rfl) fun _ => .start s1)
  have h3 : Within c s s3 := h2.trans (.ite (fun _ => handEffective_within hu p t s2) fun _ => .start s2)
  exact h3.ripple (evalActiveTo_ripple _ _ _ _ _ _)

end

theorem contactLevel_within (q : Fin 256) (v : Bool) (s : State) :
    Within (.contactLevelChange q v) s (contactLevel (fieldPoint q) v s) := by
  have hp : Instr.mayQualify (.contactLevelChange q v) (fieldPoint q) :=
    ⟨rfl, fun q' v' k => k.elim (fun e => congrArg fieldPoint (Instr.contactLevelChange.inj e).1)
      fun e => absurd (congrArg Instr.ctorIdx e) (Nat.ne_of_beq_eq_false rfl)⟩
  have hself {p : Fin 256} (e : fieldPoint p = fieldPoint q) : p = q := Fin.ext (congrArg Fin.val e :)
  have hraw : Within (.contactLevelChange q v) s (s.setRaw (fieldPoint q) v) :=
    .points s (s.setRaw (fieldPoint q) v).pt (fun p hne => modPt_point (P := fun r => r.raw = s.pt[fieldPoint p].raw)
        (fun e => absurd (congrArg (Instr.contactLevelChange · v) (hself e).symm) (hne v)) rfl)
      fun p hq => modPt_point (P := fun r => { r with active := s.pt[fieldPoint p].active } = s.pt[fieldPoint p])
        (fun e => absurd (hself e ▸ hp) hq) rfl
  exact .ite (fun _ => .start s) fun _ => .ite (fun _ => hraw.trans (debounceLevel_within hp rfl _)) fun _ => hraw

section
variable {c : Instr} (hf : c.setsForces = true) (hu : c.setsUnits = true)
include hf hu

theorem setForce_within (p : Fin 268) (v : PointState) (n : Nat) (s : State) : Within c s (setForce p v n s) := by
  unfold setForce
  extract_lets t old s1 s2 s3 s4
  have h1 : Within c s s1 := .setForces s _ hf
  have h2 : Within c s s2 := h1.trans (record_within s1 _ rfl)
  have h3 : Within c s2 s3 := .ite (fun _ => record_within s2 _ rfl) fun _ => .start s2
  have h4 : Within c s s4 :=
    h2.trans (.ite (fun _ => .start s2) fun _ => h3.trans (handEffective_within hu p t _))
  exact (h4.ripple (evalActive_ripple p .force t s4)).follow 7

theorem dropForce_within (reason : ForceOffReason) (p : Fin 268) (s : State) :
    Within c s (dropForce reason p s) := by
  unfold dropForce
  extract_lets t s1
  split
  · exact .start s
  next v _ =>
    extract_lets s2 q k s3
    have h1 : Within c s s1 := .setForces s _ hf
    have h2 : Within c s s2 := h1.trans (record_within s1 _ rfl)
    have h3 : Within c s2 s3 := .ite (fun _ => record_within s2 _ rfl) fun _ => .start s2
    exact .ite (fun _ => h2) fun _ => (h2.trans h3).trans (handEffective_within hu p t _)

theorem removeForce_within (reason : ForceOffReason) (p : Fin 268) (s : State) :
    Within c s (removeForce reason p s) :=
  .ite (fun _ => ((dropForce_within hf hu reason p s).ripple (evalActive_ripple _ _ _ _)).follow 7)
    fun _ => .start s

theorem removeAllForces_within (reason : ForceOffReason) (s : State) : Within c s (removeAllForces reason s) :=
  Within.foldl (fun s p => removeForce_within hf hu reason p s) _ s

variable {p : Fin 268} (hp : c.mayQualify p)
include hp

theorem becomeSpare_within (s : State) : Within c s (becomeSpare p s) := by
  unfold becomeSpare
  extract_lets old forced s1
  have h1 : Within c s s1 := .modPt s _ hp fun _ => rfl
  exact .ite (fun _ => (h1.trans (dropForce_within hf hu _ p s1)).follow 7) fun _ =>
    .ite (fun _ => h1) fun _ => h1.trans (handEffective_within hu p _ s1)

theorem requalify_within (old : PointConfig) (w : Option (Fin 192)) (g : Option (Fin 16)) (s : State) :
    Within c s (requalify p old w g s) := by
  unfold requalify
  extract_lets k s1 s2 s3
  have h1 : Within c s s1 :=
    .ite (fun _ => .ite (fun _ => .start s) fun _ => becomeSpare_within hf hu hp s) fun _ =>
      .ite (fun _ => (dropForce_within hf hu _ p s).follow 7) fun _ => .start s
  have h2 : Within c s s2 := h1.trans (.ite (fun _ => reseed_within hp hu w g s1) fun _ => .start s1)
  have h3 : Within c s s3 := by
    refine h2.trans (.ite (fun _ => .start s2) fun _ => ?_)
    split
    · exact qualifyTo_within hp hu w g _ s2
    · exact .start s2
  exact .ite (fun _ => h1) fun _ => .ite (fun _ => h3) fun _ => h3.trans (chatterCheck_within hp s3)

end

theorem remapPoint_ripple (p : Fin 268) (was : Bool) (source dest : Option (Fin 192)) (s : State) :
    Ripple s (remapPoint p was source dest s) := by
  unfold remapPoint
  extract_lets s1
  have h1 : Ripple s s1 := by
    unfold s1
    cases source with
    | none => exact .refl
    | some x => exact .ite (departure_ripple x s) (listChange_ripple x s)
  cases dest with
  | none => exact h1
  | some x => exact .ite (h1.trans (arrival_ripple x _ s1)) (h1.trans (listChange_ripple x s1))

section
variable {c : Instr} (hc : c.puts = true)
include hc

theorem markDiffers_within (hs : c.setsStore = true) (s : State) : Within c s (markDiffers s) :=
  (Within.setStore s { s.store with differs := true } hs).follow 8

theorem writePoint_within (hf : c.setsForces = true) (hu : c.setsUnits = true) {p : Fin 268} (hp : c.mayQualify p)
    (k : PointConfig) (s : State) : Within c s (writePoint p k s) := by
  unfold writePoint
  extract_lets old was cfg s1 stays w s2 s3
  have h1 : Within c s s1 := .setCfg s _ (.inl hc)
  have h2 : Within c s s2 := h1.trans (requalify_within hf hu hp old w _ s1)
  have h3 : Within c s s3 := h2.ripple (evalActiveTo_ripple _ _ _ _ _ _)
  exact .ite (fun _ => h3) fun _ => h3.ripple (remapPoint_ripple _ _ _ _ _)

theorem writeUnit_within (hu : c.setsUnits = true) (u : Fin 9) (k : UnitConfig) (s : State) :
    Within c s (writeUnit u k s) := by
  unfold writeUnit
  extract_lets old cfg s1 s2 s3
  have h1 : Within c s s1 := .setCfg s _ (.inl hc)
  have h2 : Within c s s2 := h1.trans (.ite (fun _ => endChangeover_within hu u s1) fun _ => .start s1)
  have h3 : Within c s s3 := h2.trans (.ite (fun _ => .start s2) fun _ => redecode_within hu u s2)
  exact .ite (fun _ => h3) fun _ => h3.trans (reblock_within hu [u] s3)

theorem writeWindow_within (w : Fin 192) (k : WindowConfig) (s : State) : Within c s (writeWindow w k s) := by
  unfold writeWindow
  extract_lets old cfg s1 s2
  have h1 : Within c s s1 := .setCfg s _ (.inl hc)
  have h2 : Within c s s2 := h1.trans (.ite (fun _ => .start s1) fun _ => (convertWindow_ripple w _ s1).within)
  exact .ite (fun _ => h2) fun _ => h2.ripple (changeClass_ripple w _ s2)

theorem writeEquation_within (k : Fin 32) (e : EquationRecord) (s : State) : Within c s (writeEquation k e s) := by
  have hinstall : Within c s (install k e s) :=
    ((Within.setCfg s _ (.inl hc)).trans (.modEqn _ k _)).ripple (seedEquation_ripple k _).ripple
  unfold writeEquation
  cases s.eqn[k].state with
  | timing | tripped => exact .modEqn s k _
  | unused | disarmed | idle | blocked => exact hinstall

end

/-! ### Panels -/

section
variable {c : Instr} {p : Fin 4} (hp : c.mayPanel p)
include hp

theorem panelPeriod_within (arrives : Bool) (s : State) : Within c s (panelPeriod arrives p s) := by
  have hsend (s : State) : Within c s (sendLamp arrives p s) := by
    unfold sendLamp
    exact .modPan s _ hp
  unfold panelPeriod
  cases s.pan[p].link with
  | disabled => exact .start s
  | starting | up => exact hsend s
  | lost => exact .ite (fun _ => .modPan s _ hp) fun _ => (Within.modPan s _ hp).trans (hsend _)

theorem followTestKey_within (s : State) : Within c s (followTestKey p s) := by
  unfold followTestKey
  extract_lets held was s1
  have h1 : Within c s s1 := .modPan s _ hp
  exact .ite (fun _ => h1.ripple (recordOperator_ripple s1 _ _ _)) fun _ => h1

theorem takeMiss_within (s : State) : Within c s (takeMiss p s) := by
  unfold takeMiss
  extract_lets s1
  have h1 : Within c s s1 := .modPan s _ hp
  have hmod (f : PanelRun → PanelRun) : Within c s (s1.modPan p f) := h1.trans (.modPan s1 f hp)
  cases s1.pan[p].link with
  | up => exact .ite (fun _ => hmod _) fun _ => (hmod _).follow (panelPoint p)
  | disabled | starting | lost => exact h1

theorem writePanel_within (hc : c.puts = true) (k : PanelConfig) (s : State) : Within c s (writePanel p k s) := by
  unfold writePanel
  extract_lets old s1 s2
  have hswitch : Within c s1 (switchPanel p k.enabled s1) := (Within.modPan s1 _ hp).follow _
  have h1 : Within c s s1 := .setCfg s _ (.inl hc)
  have h2 : Within c s s2 := h1.trans (.ite (fun _ => .start s1) fun _ => hswitch)
  have h3 : Within c s (pruneCalls p (setPanelRecord p k s2)) :=
    (h2.trans (.setCfg s2 _ (.inl hc))).ripple (pruneCalls_ripple p _)
  exact h3.trans (.modPan _ _ hp)

theorem settlePanel_within (s : State) : Within c s (settlePanel p s) := by
  unfold settlePanel
  cases s.pan[p].link with
  | up => exact .modPan s _ hp
  | disabled | starting | lost => exact .start s

end

section
variable {c : Instr} (p : Fin 4)

theorem resetKey_ripple (s : State) : Ripple s (resetKey p s) := by
  unfold resetKey
  extract_lets r g
  have hr : Ripple s r.1 := resetWindows_ripple _ s
  have hg : Ripple s g.1 :=
    (hr.trans (writeOperator_ripple r.1 .reset (some p) r.2).ripple).trans (rearmHome_ripple p _)
  exact hg.trans (writeOperator_ripple g.1 .groupReset (some p) g.2).ripple

theorem takePresses_within (seen new : Counters) (s : State) : Within c s (takePresses p seen new s) := by
  unfold takePresses
  extract_lets s1 s2
  have h1 : Within c s s1 := .ite (fun _ => .start s) fun _ =>
    (ackWindows_ripple _ s).within.ripple (recordOperator_ripple _ _ _ _)
  have h2 : Within c s s2 := h1.trans (.ite (fun _ => .start s1) fun _ =>
    (Within.hush s1 p).ripple (recordOperator_ripple _ _ _ _))
  exact .ite (fun _ => h2) fun _ => h2.ripple (logged_ripple (resetKey_ripple p s2))

theorem takeReply_within (hp : c.mayPanel p) (bs : List Byte) (s : State) : Within c s (takeReply p bs s) := by
  unfold takeReply
  extract_lets seen s1 replied s2 pressed
  have h1 : Within c s s1 := .modPan s _ hp
  have hreplied : Within c s replied := h1.trans (.modPan s1 _ hp)
  cases s1.pan[p].link with
  | disabled => exact h1
  | starting => exact .ite (fun _ => hreplied) fun _ =>
      (hreplied.trans (.modPan replied _ hp)).trans (followTestKey_within hp _)
  | up =>
    have hpressed : Within c s pressed := (h1.trans (.modPan s1 _ hp)).trans (takePresses_within p _ _ s2)
    exact (hpressed.trans (.modPan pressed _ hp)).trans (followTestKey_within hp _)
  | lost => exact (hreplied.trans (.modPan replied _ hp)).follow (panelPoint p)

end

/-! ### Equations and outputs -/

theorem takeEquations_inv {P : State → Prop} {f : Fin 32 → State → State × Outcome}
    (h : ∀ k s, P s → P (f k s).1) (ks : List (Fin 32)) (s : State) (hs : P s) :
    P (takeEquations f ks s).1 := by
  suffices H : ∀ (ks : List (Fin 32)) (x : State × List (Fin 32 × Outcome)), P x.1 →
      P (ks.foldl (fun (acc : State × List (Fin 32 × Outcome)) k =>
        let r := f k acc.1
        (r.1, acc.2 ++ [(k, r.2)])) x).1 from H ks (s, []) hs
  intro ks
  induction ks with
  | nil => exact fun _ h => h
  | cons k ks ih => exact fun x hx => ih (_, _) (h k x.1 hx)

theorem takeEquations_ripple {f : Fin 32 → State → State × Outcome} (h : ∀ k s, Ripple s (f k s).1)
    (ks : List (Fin 32)) (s : State) : Ripple s (takeEquations f ks s).1 :=
  takeEquations_inv (P := Ripple s) (fun k u hu => hu.trans (h k u)) ks s .refl

section
variable {c : Instr}

/-- A change of an output that leaves its manual demand, its readback and its fault. -/
theorem Within.driven {o : Fin 16} {f : OutputRun → OutputRun} (s : State)
    (hf : ∀ r, (f r).manual = r.manual ∧ (f r).readback = r.readback ∧ (f r).fault = r.fault) :
    Within c s (s.modOut o f) :=
  .modOut s o f (.inr fun r => (hf r).1) (.inr fun r => (hf r).2.1) (.inr fun r => (hf r).2.2)

/-- The pulse of an output ends, and the output is commanded anew. -/
theorem unpulse_within (o : Fin 16) (v : Bool) (s : State) :
    Within c s (setCommanded o v (s.modOut o fun r => { r with pulse := none })) :=
  have h1 : Within c s (s.modOut o fun r => { r with pulse := none }) := .driven s fun _ => ⟨rfl, rfl, rfl⟩
  h1.ripple (setCommanded_ripple o v _).ripple

theorem endPulse_within (o : Fin 16) (s : State) : Within c s (endPulse o s) := unpulse_within o _ s

theorem writeOutput_within (hc : c.puts = true) (o : Fin 16) (k : OutputConfig) (s : State) :
    Within c s (writeOutput o k s) := by
  unfold writeOutput
  extract_lets old cfg s1 s2
  have hkind : Within c s1 (changeKind o k.kind s1) := by
    unfold changeKind
    cases k.kind with
    | pulse => exact .ite (fun _ => (startPulse_ripple o s1).ripple.within) fun _ => .start s1
    | sustained => exact unpulse_within o _ s1
  have h1 : Within c s s1 := .setCfg s _ (.inl hc)
  have h2 : Within c s s2 := h1.trans (.ite (fun _ => .start s1) fun _ => hkind)
  exact .ite (fun _ => h2) fun _ => h2.trans (.driven s2 fun _ => ⟨rfl, rfl, rfl⟩)

theorem setManual_within (hc : c.setsManual = true) (v : Bool) (o : Fin 16) (s : State) :
    Within c s (setManual v o s) := by
  have h1 : Within c s (s.modOut o fun r => { r with manual := v }) :=
    .modOut s o _ (.inl hc) (.inr fun _ => rfl) (.inr fun _ => rfl)
  refine .ite (fun _ => .start s) fun _ => logged_within ?_
  exact (h1.trans (.write _ _ rfl)).ripple (applyDemand_ripple o _ _).ripple

theorem setManualOf_within (hc : c.setsManual = true) (v : Bool) (mask : Nat) (s : State) :
    Within c s (setManualOf v mask s) :=
  Within.each (fun o s => .ite (fun _ => setManual_within hc v o s) fun _ => .start s) s

variable (hc : c.setsFaults = true)
include hc

theorem setFault_within (v : Bool) (o : Fin 16) (s : State) :
    Within c s (s.modOut o fun r => { r with fault := v }) :=
  .modOut s o _ (.inr fun _ => rfl) (.inr fun _ => rfl) (.inl hc)

theorem returnOutput_within (o : Fin 16) (s : State) : Within c s (returnOutput o s) :=
  have h1 : Within c s (s.modOut o fun r => { r with pulse := none, fault := false }) :=
    .modOut s o _ (.inr fun _ => rfl) (.inr fun _ => rfl) (.inl hc)
  h1.ripple (setCommanded_ripple o _ _).ripple

theorem compareOutput_within (o : Fin 16) (s : State) : Within c s (compareOutput o s) := by
  have hfault : Within c s (faultOutput o s) := by
    unfold faultOutput
    extract_lets s1 s2
    have h1 : Within c s s1 := setFault_within hc true o s
    have h2 : Within c s s2 := (h1.trans (record_within s1 _ rfl)).trans (.setNews _ _ _)
    exact .ite (fun _ => .start s) fun _ => h2.follow 6
  exact .ite (fun _ => hfault) fun _ => .start s

theorem endVerify_within (o : Fin 16) (s : State) : Within c s (endVerify o s) :=
  have h1 : Within c s (s.modOut o fun r => { r with verify := none }) := .driven s fun _ => ⟨rfl, rfl, rfl⟩
  h1.trans (compareOutput_within hc o _)

theorem clearFaultsOf_within (mask : Nat) (s : State) : Within c s (clearFaultsOf mask s) := by
  have hclear (o : Fin 16) (t : State) : Within c t (clearFault o t) :=
    (setFault_within hc false o t).trans (record_within _ _ rfl)
  unfold clearFaultsOf
  exact Within.follow (Within.each (fun o t => .ite (fun _ => hclear o t) fun _ => .start t) s) 6

end

theorem readbackLevel_within (o : Fin 16) (v : Bool) (s : State) :
    Within (.readbackChange o v) s (readbackLevel o v s) := by
  unfold readbackLevel
  extract_lets s1
  have h1 : Within (.readbackChange o v) s s1 :=
    .modOut s o _ (.inr fun _ => rfl) (.inl ⟨v, rfl⟩) (.inr fun _ => rfl)
  exact .ite (fun _ => .start s) fun _ => .ite (fun _ => h1.trans (compareOutput_within rfl o s1)) fun _ => h1

/-! ### Clock, settings, news and link -/

/-- The new time of a minute pulse has its day-time in the range (R136, R140). -/
theorem snap_dayTime {t : TimeStamp} (h : t.dayTime ≤ 863999999) : (snap t).stamp.dayTime ≤ 863999999 := by
  unfold snap
  extract_lets r e t'
  simp only [Config.unitsPerDay] at *
  split
  · exact h
  split
  · dsimp only; omega
  split
  · dsimp only; omega
  · exact Nat.zero_le _

section
variable {c : Instr} (hc : c.setsClock = true)
include hc

theorem setClock_recorded {s : State} {x : HallClock} (hx : s.dayTimeLaw → x.stamp.dayTime ≤ 863999999) (step : Int)
    (reason : ClockReason) : Within c s (recordClock step reason (s.setClock x)) :=
  ((Within.setClock s x hc hx).trans (record_within _ _ rfl)).follow 4

theorem setClockTime_within {t : TimeStamp} (ht : t.dayTime < Config.unitsPerDay) (s : State) :
    Within c s (setClockTime t s) :=
  setClock_recorded (x := ⟨t, .free, none⟩) hc (fun _ => Nat.le_of_lt_succ ht) _ .set

theorem freeClock_within (reason : ClockReason) (s : State) : Within c s (freeClock reason s) :=
  setClock_recorded (x := { s.clock with state := .free, watch := none }) hc (fun h => h) 0 reason

theorem takePulse_within (s : State) : Within c s (takePulse s) := by
  have haccept : Within c s (acceptPulse (snap s.clock.stamp) s) := by
    unfold acceptPulse
    extract_lets s1
    have h1 : Within c s s1 := .setClock s _ hc snap_dayTime
    exact .ite (fun _ => h1.follow 4) fun _ => (h1.trans (record_within s1 _ rfl)).follow 4
  exact .ite (fun _ => .start s) fun _ => .ite (fun _ => haccept) fun _ => freeClock_within hc _ s

end

theorem writeSettings_within (r : Request) (k : Settings) (s : State) :
    Within (.putSettings r) s (writeSettings k s) := by
  unfold writeSettings
  extract_lets old cfg s1 s2 s3
  have h1 : Within (.putSettings r) s s1 := .setCfg s _ (.inl rfl)
  have h2 : Within (.putSettings r) s s2 := h1.trans (.ite (fun _ => .start s1) fun _ => .setDecay s1 _ rfl)
  have h3 : Within (.putSettings r) s s3 :=
    h2.trans (.ite (fun _ => .start s2) fun _ => .setLink s2 _ rfl rfl (.inr rfl))
  exact .ite (fun _ => h3) fun _ => .ite (fun _ => h3.trans (freeClock_within rfl _ s3)) fun _ => h3.follow 4

theorem clearNewsOf_within {c : Instr} (hc : c.clearsNews = true) (mask : Nat) (us : List (Fin 9)) (s : State) :
    Within c s (clearNewsOf mask us s) :=
  Within.foldl (fun s _ => .setNewsTable s _ hc) us s

theorem validFrame_within {c : Instr} (hc : c.setsLink = true) (s : State) : Within c s (validFrame s) :=
  have h1 : Within c s (s.setLink { s.link with
      silence := if s.cfg.settings.silence = 0 then none else some s.now, silent := false }) :=
    .setLink s _ hc rfl (.inr rfl)
  h1.follow 9

end Sys2Proof.Machine

/-! The changes of service state and the starts; every command goes on, within its rights. -/
namespace Sys2Proof.Machine

/-! ### The settle and the changes of service state -/

/-- A point at a return to UNCONFIGURED (R36). -/
noncomputable def returnedPoint (t : TimeStamp) (p : Fin 268) (r : PointRun) : PointRun :=
  if p.val < 256 then { r.unqualified with suppressed := 0, lastEdge := t, active := false } else r

theorem returnedPoint_raw (t : TimeStamp) (p : Fin 268) (r : PointRun) : (returnedPoint t p r).raw = r.raw := by
  unfold returnedPoint
  split
  · rfl
  · rfl

section
variable {c : Instr} (hs : c.setsService = true) (hpt : ∀ p, c.mayQualify p) (hu : c.setsUnits = true)

theorem recordMode_within (u : Fin 9) (old new : Mode) (s : State) : Within c s (recordMode u old new s) :=
  (Within.write s _ rfl).trans (.setNews _ u .mode)

include hs hpt hu

theorem endSettle_within (hd : c.setsDecay = true) (s : State) : Within c s (endSettle s) := by
  have hpoint (p : Fin 268) (s : State) : Within c s (seedPoint p s) := by
    unfold seedPoint
    extract_lets k t q s1
    have h1 : Within c s s1 := .modPt s _ (hpt p) fun _ => rfl
    exact .ite (fun _ => .ite (fun _ => h1.trans (.write s1 _ rfl)) fun _ => h1) fun _ => .start s
  have hunit (u : Fin 9) (s : State) : Within c s (seedUnit u s) := by
    unfold seedUnit
    extract_lets d old blocked s1
    have h1 : Within c s s1 := .modUn s u _ hu
    exact .ite (fun _ => h1) fun _ => h1.trans (recordMode_within u _ _ _)
  unfold endSettle
  extract_lets t s1 s2 s3 s4 s5
  have h1 : Within c s s1 := .setService s s.service none hs
  have h2 : Within c s s2 :=
    (h1.trans (Within.each (fun p s => hpoint (fieldPoint p) s) s1)).trans (Within.each hunit _)
  have h3 : Within c s s3 := h2.trans (Within.each (fun p s => (evalActive_ripple p .startup t s).within) s2)
  have h4 : Within c s s4 := h3.trans (sysFollow_within true 10 s3)
  have h5 : Within c s s5 := h4.trans (Within.each (fun k s => (seedEquation_ripple k s).ripple.within) s4)
  exact h5.trans (.setDecay s5 (some s5.now) hd)

theorem returnUnconfigured_within (hd : c.setsDecay = true) (hf : c.setsForces = true) (hm : c.setsManual = true)
    (hfault : c.setsFaults = true) (s : State) : Within c s (returnUnconfigured s) := by
  have hchatter (p : Fin 268) (s : State) : Within c s (chatterOffAtReturn p s) := by
    unfold chatterOffAtReturn
    exact .ite (fun _ => record_within s _ rfl) fun _ => .start s
  have hpoints (s : State) : Within c s (returnPoints s) := by
    unfold returnPoints
    extract_lets s1 t
    have h1 : Within c s s1 := Within.each hchatter s
    clear_value s1
    exact (h1.trans (.setDecay s1 none hd)).trans (.points _ (tab fun p => returnedPoint t p s1.pt[p])
      (fun p _ => (congrArg PointRun.raw (tab_getElem _ _ _)).trans (returnedPoint_raw ..))
      fun p hp => absurd (hpt _) hp)
  have hunit (u : Fin 9) (s : State) : Within c s (returnUnit u s) := by
    unfold returnUnit
    extract_lets d old s1
    have h1 : Within c s s1 := .modUn s u _ hu
    exact .ite (fun _ => h1) fun _ => h1.trans (logged_within (recordMode_within u old d s1))
  have hsystem (s : State) : Within c s (rearriveSystem s) :=
    Within.each (fun k s => by
      dsimp only
      cases s.pt[sysPoint k].active with
      | false => exact .start s
      | true =>
        cases s.cfg.points[sysPoint k].contributes with
        | none => exact .start s
        | some w => exact (arrival_ripple w 0 s).within) s
  have hquiet (s : State) : Within c s (quietWindows s) :=
    (Within.windows s _).trans (Within.each (fun p s => .hush s p) _)
  unfold returnUnconfigured
  extract_lets s1 s2 s3 s4 s5 s6
  have h1 : Within c s s1 := (removeAllForces_within hf hu .clear s).trans (hpoints _)
  have h2 : Within c s s2 := (h1.trans (Within.each hunit s1)).follow 10
  have h3 : Within c s s3 := (h2.trans (hquiet s2)).trans (hsystem _)
  have h4 : Within c s s4 := h3.trans (Within.each (fun g s => (rearmGroup_ripple g s).within) s3)
  have h5 : Within c s s5 :=
    (h4.trans (Within.each (fun k s => (logged_ripple (returnEquation_ripple k s).ripple).within) s4)).trans
      (Within.each (fun k s => (formTerms_ripple k s).ripple.within) _)
  have h6 : Within c s s6 :=
    (h5.trans (Within.each (fun o s => setManual_within hm false o s) s5)).trans
      (Within.each (fun o s => returnOutput_within hfault o s) _)
  exact h6.follow 6

end

theorem changeService_within (r : Request) (target : Service) (s : State) :
    Within (.setService r) s (changeService target s) := by
  unfold changeService
  extract_lets was s1 s2
  have h1 : Within (.setService r) s s1 := .setService s target s.settle rfl
  have h2 : Within (.setService r) s s2 := h1.trans (record_within s1 _ rfl)
  have h3 : Within (.setService r) s { s2 with settle := some s2.now } := h2.trans (.setService s2 s2.service _ rfl)
  have hsettle : Within (.setService r) s (beginSettle s2) :=
    h3.trans (Within.each (fun p s => settlePanel_within (Instr.mayPanel_all rfl rfl p) s) _)
  have hreturn : Within (.setService r) s (returnUnconfigured s2) :=
    h2.trans (returnUnconfigured_within rfl (Instr.mayQualify_all rfl rfl) rfl rfl rfl rfl rfl s2)
  have hmanual : Within (.setService r) s (each 16 (setManual false) s2) :=
    h2.trans (Within.each (fun o s => setManual_within rfl false o s) s2)
  clear_value was
  cases was <;> cases target
  case unconfigured.commissioning => exact hsettle
  case commissioning.inService => exact hmanual
  case commissioning.unconfigured => exact hreturn
  all_goals exact h2

/-! ### Starts -/

/-- Where the command is a start, it has every right that a start needs. -/
noncomputable def startSets (c : Instr) : Bool :=
  !c.starts || (c.setsForces && (c.setsPoints && (c.setsDecay && (c.setsUnits && (c.setsPanels && (c.setsManual &&
    (c.setsFaults && (c.removesRecords && (c.clearsNews && (c.setsService && (c.setsLink && !c.ofOne)))))))))))

theorem startSets_all (c : Instr) : startSets c = true := by
  cases c <;> rfl

section
variable {c : Instr} (hc : c.starts = true)
include hc

theorem starts_rights : c.setsForces = true ∧ c.setsPoints = true ∧ c.setsDecay = true ∧
    c.setsUnits = true ∧ c.setsPanels = true ∧ c.setsManual = true ∧ c.setsFaults = true ∧
    c.removesRecords = true ∧ c.clearsNews = true ∧ c.setsService = true ∧ c.setsLink = true ∧ c.ofOne = false := by
  have h := startSets_all c
  rw [startSets, hc] at h
  simpa only [Bool.not_true, Bool.false_or, Bool.and_eq_true, Bool.not_eq_true'] using h

theorem startBlocks_within (s : State) : Within c s (startBlocks s) := by
  obtain ⟨hforces, hpoints, hdecay, hunits, hpanels, hmanual, hfaults, hlog, hnews, hserv, hlink, hone⟩ := starts_rights hc
  have hraw (s : State) (p : Fin 256) :
      (tab fun p : Fin 268 => s.pt[p].started s.stamp (256 ≤ p.val))[fieldPoint p].raw = s.pt[fieldPoint p].raw :=
    (congrArg PointRun.raw (tab_getElem _ _ _)).trans (by
      show (s.pt[fieldPoint p].raw && !decide (256 ≤ p.val)) = _
      rw [decide_eq_false (Nat.not_le.mpr p.isLt), Bool.not_false, Bool.and_true])
  have hpt (s : State) : Within c s (startPoints s) :=
    ((Within.setForces s [] hforces).trans (.setDecay _ none hdecay)).trans (.points _ _ (fun p _ => hraw s p)
      fun p hp => absurd (Instr.mayQualify_all hpoints hone _) hp)
  have hpan (s : State) : Within c s (startPanels s) :=
    have h1 : Within c s { s with frameClock := ⟨0, false, s.now⟩ } := .setFrameClock s _ (.inl hc)
    h1.trans (.panels _ _ fun p hp => absurd (Instr.mayPanel_all hpanels hone p) hp)
  have heqn (s : State) : Within c s (startEquations s) :=
    (Within.equations s _).trans (Within.each (fun k s => (formTerms_ripple k s).ripple.within) _)
  have hout (s : State) : Within c s (startOutputs s) :=
    .outputs s _ (.inl hmanual) (fun o _ => (congrArg OutputRun.readback (tab_getElem _ o.val o.isLt) :)) (.inl hfaults)
  have hlinked (s : State) : Within c s (startLink s) :=
    have h1 : Within c s { s with news := tab fun _ => ⟨false, false, false, false⟩ } := .setNewsTable s _ hnews
    h1.trans (.setLink _ _ hlink rfl (.inl hc))
  unfold startBlocks
  extract_lets s1 s2 s3
  have h1 : Within c s s1 := (Within.emptied s hlog).trans (.setService _ s.service none hserv)
  have h2 : Within c s s2 := (h1.trans (hpt s1)).trans (.units _ _ hunits)
  have hwin : Within c s { s2 with win := tab fun _ => .quiet } := h2.trans (.windows s2 _)
  have h3 : Within c s s3 := hwin.trans (.groups _ _ fun _ g =>
    (tab_getElem (fun g : Fin 16 => s2.grp[g].rearmed) g.val g.isLt).symm ▸ rearmed_law _)
  exact (((h3.trans (hpan s3)).trans (heqn _)).trans (hout _)).trans (hlinked _)

theorem restart_within (cause : ServiceCause) (s : State) : Within c s (restart cause s) := by
  obtain ⟨-, -, -, -, -, -, -, -, -, hserv, -⟩ := starts_rights hc
  unfold restart
  extract_lets s1 s2 s3
  have h3 : Within c s s3 := ((startBlocks_within hc s).trans (record_within s1 _ rfl)).trans
    (Within.each (fun k s => sysFollow_within true k s) s2)
  exact .ite (fun _ => h3) fun _ => h3.trans (.setService s3 s3.service _ hserv)

theorem loadImage_within (hs : c.setsStore = true) (s : State) : Within c s (loadImage s) := by
  obtain ⟨-, -, -, -, -, -, -, -, -, hserv, -⟩ := starts_rights hc
  have hload (x : Tables) (v : Service) (y : StoreRun) : Within c s { s with cfg := x, service := v, store := y } :=
    ((Within.setCfg s x (.inr hc)).trans (.setService _ v s.settle hserv)).trans (.setStore _ y hs)
  exact .ite (fun _ => hload _ _ _) fun _ => hload _ _ _

theorem reload_within (hd : c.drawsFree = true) (hs : c.setsStore = true) (good bad : ServiceCause)
    (s : State) : Within c s (reload good bad s) := by
  obtain ⟨-, -, -, -, -, -, -, -, -, -, hlink, -⟩ := starts_rights hc
  have hend : Within c s (endSave s) := by
    unfold endSave
    cases s.store.job with
    | none => exact .start s
    | some j =>
      have h1 : Within c s { s with draws := s.draws + 1 } := .setDraws s _ hd
      exact h1.trans (.setStore _ _ hs)
  unfold reload
  extract_lets s1 cause s2
  have h2 : Within c s s2 := hend.trans (loadImage_within hc hs s1)
  have h3 : Within c s (s2.setLink { s2.link with receiver := .hunt, speed := s2.cfg.settings.speed }) :=
    h2.trans (.setLink s2 _ hlink rfl (.inr rfl))
  exact h3.trans (restart_within hc cause _)

theorem clearAllStart_within (s : State) : Within c s (clearAllStart s) := by
  unfold clearAllStart
  extract_lets cfg s1
  have h1 : Within c s s1 := .setCfg s _ (.inr hc)
  exact h1.trans (restart_within hc .clearAll s1)

end

/-! ### Accepted requests -/

/-- A request that is accepted has passed the checks before its owner's (R156). -/
theorem judge_accept {h : Handler} {r : Request} {s : State} {a : Answer}
    (ha : h.judge r s = .accept a) : h.act r s = .accept a := by
  have refuse {b : Bool} {x : ResultCode} {v : Verdict} (hv : (if b then .refuse x else v) = .accept a) :
      v = .accept a := by
    cases b with
    | true => exact Verdict.noConfusion hv
    | false => exact hv
  exact refuse (refuse (refuse (refuse ha)))

/-- Where a verdict accepts, what it leaves is within the command's rights, and so is what follows the forming of the
reply. -/
def Verdict.within (v : Verdict) (c : Instr) (s : State) : Prop :=
  ∀ a : Answer, v = .accept a → Within c s a.state ∧ ∀ u : State, Within c u (a.after u)

section
variable {c : Instr} {s t : State}

theorem refuse_within (x : ResultCode) : (Verdict.refuse x).within c s := fun _ h => Verdict.noConfusion h

theorem answer_within {a : Answer} (h : Within c s a.state) (k : ∀ u, Within c u (a.after u)) :
    (Verdict.accept a).within c s := fun b hb => Verdict.accept.inj hb ▸ ⟨h, k⟩

theorem accept_within {data : State → List Byte} (h : Within c s t) : (accept t data).within c s :=
  answer_within h fun u => .start u

theorem put_within {data : State → List Byte} (hp : c.puts = true) (hs : c.setsStore = true) (h : Within c s t) :
    (putAnswer t data).within c s := accept_within (h.trans (markDiffers_within hp hs t))

theorem equationsAnswer_within {one : Bool} {f : Fin 32 → State → State × Outcome}
    (h : ∀ k s, Ripple s (f k s).1) (ks : List (Fin 32)) : (equationsAnswer one (takeEquations f ks s)).within c s :=
  answer_within (takeEquations_ripple h ks s).within fun u => .start u

theorem ranged_within {α : Type} {x : Option α} {f : α → Verdict} (h : ∀ y, x = some y → (f y).within c s) :
    (ranged x f).within c s := by
  cases x with
  | none => exact refuse_within _
  | some y => exact h y rfl

theorem ite_within {b : Prop} [Decidable b] {v w : Verdict} (h : b → v.within c s) (k : ¬ b → w.within c s) :
    (if b then v else w).within c s := by
  split
  next hb => exact h hb
  next hb => exact k hb

end

theorem timeOperand_dayTime {b : List Byte} {t : TimeStamp} (h : timeOperand b = some t) :
    t.dayTime < Config.unitsPerDay := by
  unfold timeOperand at h
  split at h
  next hlt => exact Option.some.inj h ▸ hlt
  next => exact absurd h.symm (Option.some_ne_none _)

section
variable (r : Request) (s : State)

theorem handleSetTime_within (b : Bool) : (handleSetTime.act r s).within (.setTime b r) s :=
  ranged_within fun _ ht => accept_within (setClockTime_within rfl (timeOperand_dayTime ht) s)

theorem handleReadStatus_within : (handleReadStatus.act r s).within (.readStatus r) s :=
  answer_within (.start s) fun u => by
    dsimp only
    cases u.cfg.settings.clearMode with
    | clearOnRead => exact clearNewsOf_within rfl 15 _ u
    | clearByRequest => exact .start u

theorem handleForce_within : (handleForce.act r s).within (.force r) s :=
  ranged_within fun x _ => ite_within (fun _ => refuse_within _) fun _ => ite_within (fun _ => refuse_within _) fun _ =>
    accept_within (setForce_within rfl rfl x.1 x.2 _ s)

theorem handleUnforce_within : (handleUnforce.act r s).within (.unforce r) s :=
  ite_within (fun _ => accept_within (removeAllForces_within rfl rfl _ s)) fun _ => ranged_within fun p _ =>
    ite_within (fun _ => accept_within (removeForce_within rfl rfl _ p s)) fun _ => refuse_within _

theorem handlePutPoint_within : (handlePutPoint.act r s).within (.putPoint r) s :=
  ranged_within fun p _ => ranged_within fun c _ => by
    cases hr : pointRefusal s.cfg p (rd16 r.body 2) c with
    | some x => exact refuse_within x
    | none => exact put_within rfl rfl (writePoint_within rfl rfl rfl (Instr.mayQualify_all rfl rfl p) c s)

theorem handlePutUnit_within : (handlePutUnit.act r s).within (.putUnit r) s :=
  ranged_within fun u _ => ranged_within fun c _ => ite_within (fun _ => refuse_within _) fun _ =>
    put_within rfl rfl (writeUnit_within rfl rfl u c s)

theorem handlePutPanel_within : (handlePutPanel.act r s).within (.putPanel r) s :=
  ranged_within fun p _ => ranged_within fun c _ => ite_within (fun _ => refuse_within _) fun _ =>
    put_within rfl rfl (writePanel_within (Instr.mayPanel_all rfl rfl p) rfl c s)

theorem handlePutEquation_within : (handlePutEquation.act r s).within (.putEquation r) s :=
  ranged_within fun k _ => ranged_within fun c _ => ite_within (fun _ => refuse_within _) fun _ =>
    put_within rfl rfl (writeEquation_within rfl k c s)

theorem handleSetService_within : (handleSetService.act r s).within (.setService r) s :=
  ranged_within fun target _ => by
    have hchange : Within (.setService r) s (if s.service = target then s else changeService target s) :=
      .ite (fun _ => .start s) fun _ => changeService_within r target s
    generalize s.service = was at hchange
    cases was <;> cases target
    case unconfigured.inService | inService.unconfigured => exact refuse_within _
    all_goals exact accept_within hchange

theorem lampTestOn_within (first last n : Nat) (p : Fin 4) :
    Within (.lampTest r) s (lampTestOn first last n p s).1 := by
  have h (f : PanelRun → PanelRun) : Within (.lampTest r) s (s.modPan p f) :=
    .modPan s f (Instr.mayPanel_all rfl rfl p)
  unfold lampTestOn
  split
  · exact h fun r => { r with test := none }
  · exact h fun r => { r with test := some ⟨first, last, s.now, n⟩ }

theorem resetGroupOn_ripple (g : Fin 16) : Ripple s (resetGroupOn g s).1 := by
  unfold resetGroupOn
  cases s.grp[g].state with
  | captured => exact rearmGroup_ripple g s
  | settling | armed => exact .refl

end

/-- What an operator request does to each item of a list, and its record. -/
theorem operator_within {c : Instr} {α : Type} {f : α → State → State × Bool} (h : ∀ i s, Within c s (f i s).1)
    (l : List α) (a : OperatorAction) (s : State) :
    Within c s ((countEach l f s).1.recordOperator a none (countEach l f s).2) :=
  (Within.countEach h l s).ripple (recordOperator_ripple _ _ _ _)

/-- Where a command is a request whose gate is passed, its owner acts within its rights (R156). -/
def requestActs (c : Instr) (s : State) : Prop :=
  ∀ (h : Handler) (r : Request), c.request = some (h, r) → (h.act r s).within c s

theorem requestActs_request {c : Instr} {h : Handler} {r : Request} {s : State} (hc : c.request = some (h, r))
    (k : (h.act r s).within c s) : requestActs c s := fun h' r' hc' => by
  obtain ⟨rfl, rfl⟩ := Prod.mk.inj (Option.some.inj (hc.symm.trans hc'))
  exact k

theorem requestActs_other {c : Instr} {s : State} (hc : c.request = none) : requestActs c s := fun _ _ hc' =>
  absurd (hc'.symm.trans hc) (Option.some_ne_none _)

theorem requestActs_all (c : Instr) (s : State) : requestActs c s := by
  cases c with
  | readStatus r => exact requestActs_request rfl (handleReadStatus_within r s)
  | readPoints r | readWindows r | readGroups r | readEquations r | getPoint r | getUnit r | getWindow r | getPanel r
  | getGroup r | getEquation r | getOutput r =>
    exact requestActs_request rfl (ranged_within fun _ _ => accept_within (.start s))
  | readOutputs r | readClock r | getSettings r => exact requestActs_request rfl (accept_within (.start s))
  | readEvents r => exact requestActs_request rfl (accept_within ((Within.release s _ rfl).follow 5))
  | ack r =>
    exact requestActs_request rfl (ranged_within fun ws _ => accept_within
      ((ackWindows_ripple ws s).within.ripple (recordOperator_ripple _ _ _ _)))
  | silence r =>
    exact requestActs_request rfl (ranged_within fun ps _ => accept_within
      (operator_within (fun p s => .hush s p) ps _ s))
  | resetWindows r =>
    exact requestActs_request rfl (ranged_within fun ws _ => accept_within
      ((resetWindows_ripple ws s).within.ripple (recordOperator_ripple _ _ _ _)))
  | resetGroups r =>
    exact requestActs_request rfl (accept_within (operator_within (fun g s => (resetGroupOn_ripple s g).within) _ _ s))
  | lampTest r =>
    exact requestActs_request rfl (ranged_within fun ps _ => accept_within
      (operator_within (fun p s => lampTestOn_within r s _ _ _ p) ps _ s))
  | brightness r =>
    exact requestActs_request rfl (ranged_within fun ps _ => accept_within
      (operator_within (fun p s => .modPan s (fun x => { x with brightness := _ }) (Instr.mayPanel_all rfl rfl p)) ps _ s))
  | tripReset r =>
    exact requestActs_request rfl (ranged_within fun ks _ => equationsAnswer_within resetEquation_ripple ks)
  | arm r =>
    exact requestActs_request rfl (ranged_within fun ks _ =>
      equationsAnswer_within (fun k s => (armEquation_ripple k s).ripple) ks)
  | force r => exact requestActs_request rfl (handleForce_within r s)
  | unforce r => exact requestActs_request rfl (handleUnforce_within r s)
  | clearNews r =>
    exact requestActs_request rfl (ranged_within fun mask _ => accept_within (clearNewsOf_within rfl mask _ s))
  | clearFaults r => exact requestActs_request rfl (accept_within (clearFaultsOf_within rfl _ s))
  | outputSet r => exact requestActs_request rfl (accept_within (setManualOf_within rfl true _ s))
  | outputClear r => exact requestActs_request rfl (accept_within (setManualOf_within rfl false _ s))
  | putPoint r => exact requestActs_request rfl (handlePutPoint_within r s)
  | putUnit r => exact requestActs_request rfl (handlePutUnit_within r s)
  | putWindow r =>
    exact requestActs_request rfl (ranged_within fun w _ => ranged_within fun c _ =>
      put_within rfl rfl (writeWindow_within rfl w c s))
  | putPanel r => exact requestActs_request rfl (handlePutPanel_within r s)
  | putGroup r =>
    exact requestActs_request rfl (ranged_within fun g _ => ranged_within fun c _ =>
      put_within rfl rfl (.setCfg s _ (.inl rfl)))
  | putEquation r => exact requestActs_request rfl (handlePutEquation_within r s)
  | putOutput r =>
    exact requestActs_request rfl (ranged_within fun o _ => ranged_within fun c _ =>
      put_within rfl rfl (writeOutput_within rfl o c s))
  | putSettings r =>
    exact requestActs_request rfl (ranged_within fun c _ => put_within rfl rfl (writeSettings_within r c s))
  | save r => exact requestActs_request rfl (accept_within (.setStore s _ rfl))
  | setService r => exact requestActs_request rfl (handleSetService_within r s)
  | clearAll r => exact requestActs_request rfl (accept_within (clearAllStart_within rfl s))
  | setTime b r =>
    cases b with
    | false => exact requestActs_request rfl (handleSetTime_within r s false)
    | true => exact requestActs_other rfl
  | contactLevelChange | debounceExpiry | chatterDecayExpiry | forceExpiry | modeSettleExpiry | groupSettleExpiry
  | frameClockPeriod | keyReply | keyReplyMiss | requestedTestExpiry | chimeEnd | delayExpiry | pulseExpiry
  | verifyExpiry | readbackChange | minutePulse | minuteWatchExpiry | stationLinkByte | interByteSilence | frameDiscard
  | unknownRequestKind | replySent | silenceTimerExpiry | saveSuccess | saveFailure | settleEnd | powerOn
  | resetLine => exact requestActs_other rfl

/-! ### Commands -/

section
variable {c : Instr}

theorem setsLink_of_request (h : c.request.isSome = true) : c.setsLink = true :=
  (Bool.or_eq_true_iff ..).mpr (.inl ((Bool.or_eq_true_iff ..).mpr (.inl h)))

theorem Within.receiver (hc : c.setsLink = true) (x : Receiver) (s : State) :
    Within c s (s.setLink { s.link with receiver := x }) := .setLink s _ hc rfl (.inr rfl)

/-- A request that is taken: the frame is heard, the owner acts, the reply is sent (R155). -/
theorem take_within {h : Handler} {r : Request} (hc : c.request = some (h, r)) (s : State) :
    Within c s (h.take r s) := by
  have hl := setsLink_of_request (Option.isSome_iff_exists.mpr ⟨_, hc⟩)
  have hframe : Within c s (validFrame s) := validFrame_within hl s
  unfold Handler.take
  extract_lets u
  cases hv : h.judge r u with
  | refuse x => exact hframe.trans (.receiver hl _ _)
  | accept a =>
    obtain ⟨hact, hafter⟩ := requestActs_all c u h r hc a (judge_accept hv)
    exact ((hframe.trans hact).trans (.receiver hl _ _)).trans (hafter _)

/-- A broadcast SET_TIME is taken in the same way and not answered (R138). -/
theorem takeBroadcast_within (r : Request) (s : State) :
    Within (.setTime true r) s (handleSetTime.takeBroadcast r s) := by
  have hframe : Within (.setTime true r) s (validFrame s) := validFrame_within rfl s
  unfold Handler.takeBroadcast
  extract_lets u v
  refine Within.trans ?_ (.receiver rfl _ _)
  unfold v
  cases hv : handleSetTime.judge r u with
  | refuse x => exact hframe
  | accept a => exact hframe.trans (handleSetTime_within r u true a (judge_accept hv)).1

theorem takeUnknown_within (hl : c.setsLink = true) (kind : Nat) (sel : Word) (s : State) :
    Within c s (takeUnknown kind sel s) :=
  (validFrame_within hl s).trans (.receiver hl _ _)

end

/-- The request commands, in the order of their owners. -/
noncomputable def commands (r : Request) : List Instr :=
  [.readStatus r, .readPoints r, .readWindows r, .readGroups r, .readEquations r, .readOutputs r, .readEvents r,
    .readClock r, .ack r, .silence r, .resetWindows r, .resetGroups r, .lampTest r, .brightness r, .tripReset r, .arm r,
    .force r, .unforce r, .clearNews r, .clearFaults r, .outputSet r, .outputClear r, .setTime false r, .putPoint r,
    .getPoint r, .putUnit r, .getUnit r, .putWindow r, .getWindow r, .putPanel r, .getPanel r, .putGroup r, .getGroup r,
    .putEquation r, .getEquation r, .putOutput r, .getOutput r, .putSettings r, .getSettings r, .save r, .setService r,
    .clearAll r]

theorem commands_request (r : Request) :
    (commands r).map Instr.request = handlers.map fun h => some (h, r) := rfl

/-- Every owner of a kind code is that of a request command. -/
theorem handlers_request {h : Handler} (hh : h ∈ handlers) (r : Request) :
    ∃ c : Instr, c.request = some (h, r) := by
  have hm : some (h, r) ∈ (commands r).map Instr.request :=
    commands_request r ▸ List.mem_map_of_mem (f := fun h => some (h, r)) hh
  exact (List.mem_map.mp hm).imp fun _ hc => hc.2

/-- A complete frame that a byte ends is judged and acted on. -/
theorem takeFrame_within (b : Byte) (f : List Byte) (s : State) :
    Within (.stationLinkByte b) s (takeFrame f s) := by
  have hhunt : Within (.stationLinkByte b) s s.hunt := .receiver rfl .hunt s
  unfold takeFrame
  extract_lets u
  split
  · exact hhunt
  · exact hhunt.trans (validFrame_within rfl _)
  next r _ => exact hhunt.trans (.byByte (.inr ⟨r, rfl⟩) (takeBroadcast_within r _))
  next kind r _ =>
    unfold takeKind
    split
    next h hh =>
      obtain ⟨c, hc⟩ := handlers_request (List.mem_of_find?_eq_some hh) r
      exact hhunt.trans (.byByte (.inl (Option.isSome_iff_exists.mpr ⟨_, hc⟩)) (take_within hc _))
    next => exact hhunt.trans (takeUnknown_within rfl _ _ _)

theorem takeByte_within (b : Byte) (s : State) : Within (.stationLinkByte b) s (takeByte b s) := by
  have hline (x : Receiver) : Within (.stationLinkByte b) s (s.setLink { s.link with receiver := x }) :=
    .receiver rfl x s
  unfold takeByte
  cases s.link.receiver.atByte s.now with
  | hunt => exact .ite (fun _ => hline _) fun _ => hline _
  | receiving bs last =>
    exact .ite (fun _ => hline _) fun _ => .ite (fun _ => takeFrame_within b _ s) fun _ => hline _
  | skip last => exact hline _
  | replying f => exact .start s

/-- The command goes on, within its rights. -/
def goesOn (c : Instr) (s : State) : Prop := ∃ t, exec c s = .next t ∧ Within c s t

section
variable {c : Instr} {s t : State}

theorem goesOn_ite {b : Bool} (he : exec c s = if b then .next t else .next s) (h : b = true → Within c s t) :
    goesOn c s := by
  cases b with
  | false => exact ⟨s, he, .start s⟩
  | true => exact ⟨t, he, h rfl⟩

theorem goesOn_due {b : Bool} (he : exec c s = if b then .next t else .next s) (h : Within c s t) :
    goesOn c s := goesOn_ite he fun _ => h

theorem goesOn_request {h : Handler} {r : Request} (hc : c.request = some (h, r)) (s : State) : goesOn c s :=
  ⟨serve h r s, exec_request hc s, .ite (fun _ => take_within hc s) fun _ => .start s⟩

end

theorem debounceExpiry_goesOn (p : Fin 256) (s : State) : goesOn (.debounceExpiry p) s := by
  show ∃ t, execDebounceExpiry p s = .next t ∧ _
  have hp : Instr.mayQualify (.debounceExpiry p) (fieldPoint p) :=
    ⟨rfl, fun q v k => k.elim (fun e => absurd (congrArg Instr.ctorIdx e) (Nat.ne_of_beq_eq_false rfl))
      fun e => congrArg fieldPoint (Instr.debounceExpiry.inj e)⟩
  unfold execDebounceExpiry
  cases s.debounceDue (fieldPoint p) with
  | none => exact ⟨s, rfl, .start s⟩
  | some e => exact ⟨_, rfl, qualify_within hp rfl e s⟩

theorem frameDiscard_goesOn (f : List Byte) (s : State) : goesOn (.frameDiscard f) s := by
  have hhunt : Within (.frameDiscard f) s s.hunt := .receiver rfl .hunt s
  show ∃ t, execFrameDiscard f s = .next t ∧ _
  unfold execFrameDiscard
  cases s.listening && frameWf f with
  | false => exact ⟨s, rfl, .start s⟩
  | true =>
    cases judgeFrame s.link.station.toNat f with
    | dropped => exact ⟨s.hunt, rfl, hhunt⟩
    | broadcast => exact ⟨validFrame s.hunt, rfl, hhunt.trans (validFrame_within rfl _)⟩
    | broadcastTime _ | request _ _ => exact ⟨s, rfl, .start s⟩

theorem replySent_goesOn (s : State) : goesOn .replySent s := by
  show ∃ t, execReplySent s = .next t ∧ _
  unfold execReplySent
  cases s.link.receiver with
  | replying f => exact ⟨_, rfl, .setLink s _ rfl rfl (.inr rfl)⟩
  | hunt | receiving | skip => exact ⟨s, rfl, .start s⟩

theorem saveSuccess_goesOn (s : State) : goesOn .saveSuccess s := by
  show ∃ t, execSaveSuccess s = .next t ∧ _
  unfold execSaveSuccess
  cases s.store.job with
  | none => exact ⟨s, rfl, .start s⟩
  | some j =>
    by_cases hn : s.now ≤ j.start + Config.saveLimit
    · exact ⟨_, if_pos hn, ((Within.setStore s _ rfl).follow 8).follow 11⟩
    · exact ⟨_, if_neg hn, .start s⟩

theorem saveFailure_goesOn (s : State) : goesOn .saveFailure s := by
  show ∃ t, execSaveFailure s = .next t ∧ _
  unfold execSaveFailure
  cases s.store.job with
  | none => exact ⟨s, rfl, .start s⟩
  | some j => exact ⟨_, rfl, ((Within.setStore s _ rfl).trans (.setDraws _ _ rfl)).follow 11⟩

theorem beginPeriod_within (s : State) : Within .frameClockPeriod s (beginPeriod s) :=
  have h1 : Within .frameClockPeriod s { s with draws := s.draws + 1 } := .setDraws s _ rfl
  have h2 : Within .frameClockPeriod s { s with draws := s.draws + 1, frameClock := s.frameClock.next } :=
    h1.trans (.setFrameClock _ _ (.inr rfl))
  h2.trans (Within.each (fun p s => panelPeriod_within (Instr.mayPanel_all rfl rfl p) _ s) _)

theorem mayPanel_keyReply (p : Fin 4) (bs : List Byte) : Instr.mayPanel (.keyReply p bs) p :=
  ⟨rfl, fun _ _ k => k.elim (fun e => (Instr.keyReply.inj e).1)
    fun e => absurd (congrArg Instr.ctorIdx e) (Nat.ne_of_beq_eq_false rfl)⟩

theorem mayPanel_keyReplyMiss (p : Fin 4) : Instr.mayPanel (.keyReplyMiss p) p :=
  ⟨rfl, fun _ _ k => k.elim (fun e => absurd (congrArg Instr.ctorIdx e) (Nat.ne_of_beq_eq_false rfl))
    fun e => Instr.keyReplyMiss.inj e⟩

/-- Every command goes on, within its rights. -/
theorem exec_within (c : Instr) (s : State) : goesOn c s := by
  cases c with
  | contactLevelChange p v => exact ⟨_, rfl, contactLevel_within p v s⟩
  | debounceExpiry p => exact debounceExpiry_goesOn p s
  | chatterDecayExpiry =>
    exact goesOn_due rfl ((Within.setDecay s _ rfl).trans
      (Within.each (fun p s => decayPoint_within (Instr.mayQualify_all rfl rfl p) s) _))
  | forceExpiry p => exact goesOn_due rfl (removeForce_within rfl rfl _ _ s)
  | modeSettleExpiry u => exact goesOn_due rfl (endChangeover_within rfl u s)
  | groupSettleExpiry g =>
    refine goesOn_ite rfl fun hg => logged_within ?_
    exact (Ripple.grp .refl g _ fun hl => captured_law hl (beq_iff_eq.mp ((Bool.and_eq_true_iff ..).mp hg).1)).within.ripple
      (putFirstOut_ripple g _).ripple
  | frameClockPeriod => exact goesOn_due rfl (beginPeriod_within s)
  | keyReply p bs =>
    exact goesOn_due (b := s.waiting p && goodReply bs) rfl (takeReply_within p (mayPanel_keyReply p bs) bs s)
  | keyReplyMiss p => exact goesOn_due rfl (takeMiss_within (mayPanel_keyReplyMiss p) s)
  | requestedTestExpiry p => exact goesOn_due rfl (.modPan s _ (Instr.mayPanel_all rfl rfl p))
  | chimeEnd p => exact goesOn_due rfl (.sound s p _ fun _ => rfl)
  | delayExpiry k => exact goesOn_due rfl (logged_ripple (enterTripped_ripple handTrip_ripple k s).ripple).within
  | pulseExpiry o => exact goesOn_due rfl (endPulse_within o s)
  | verifyExpiry o => exact goesOn_due rfl (endVerify_within rfl o s)
  | readbackChange o v => exact ⟨_, rfl, readbackLevel_within o v s⟩
  | minutePulse => exact ⟨_, rfl, takePulse_within rfl s⟩
  | minuteWatchExpiry => exact goesOn_due rfl (freeClock_within rfl _ s)
  | stationLinkByte b => exact ⟨_, rfl, takeByte_within b s⟩
  | interByteSilence => exact goesOn_due rfl (.receiver rfl .hunt s)
  | frameDiscard f => exact frameDiscard_goesOn f s
  | unknownRequestKind k r => exact goesOn_due rfl (takeUnknown_within rfl _ _ s)
  | replySent => exact replySent_goesOn s
  | silenceTimerExpiry =>
    exact goesOn_due rfl ((Within.setLink s { s.link with silence := none, silent := true } rfl rfl (.inr rfl)).follow 9)
  | setTime b r =>
    cases b with
    | false => exact goesOn_request rfl s
    | true => exact goesOn_due (b := s.listening) rfl (takeBroadcast_within r s)
  | saveSuccess => exact saveSuccess_goesOn s
  | saveFailure => exact saveFailure_goesOn s
  | settleEnd => exact goesOn_due rfl (endSettle_within rfl (Instr.mayQualify_all rfl rfl) rfl rfl s)
  | powerOn =>
    exact ⟨_, rfl, (Within.setClock s _ rfl fun _ => by decide).trans (reload_within rfl rfl rfl _ _ _)⟩
  | resetLine => exact ⟨_, rfl, reload_within rfl rfl rfl _ _ s⟩
  | readStatus r | readPoints r | readWindows r | readGroups r | readEquations r | readOutputs r | readEvents r
  | readClock r | ack r | silence r | resetWindows r | resetGroups r | lampTest r | brightness r | tripReset r | arm r
  | force r | unforce r | clearNews r | clearFaults r | outputSet r | outputClear r | putPoint r | getPoint r
  | putUnit r | getUnit r | putWindow r | getWindow r | putPanel r | getPanel r | putGroup r | getGroup r
  | putEquation r | getEquation r | putOutput r | getOutput r | putSettings r | getSettings r | save r | setService r
  | clearAll r => exact goesOn_request rfl s

/-- What a command leaves is within its rights. -/
theorem within_of_exec {c : Instr} {s t : State} (h : exec c s = .next t) : Within c s t := by
  obtain ⟨u, hu, k⟩ := exec_within c s
  exact Host.Outcome.next.inj (hu.symm.trans h) ▸ k

/-- A law that a clock unit, the taking of a command and every command keep is kept by every step. -/
theorem step_keeps {P : State → Prop} (htick : ∀ s, P s → P (tick s))
    (htake : ∀ s rest, P s → P { s with pending := rest }) (hcommand : ∀ c s t, Within c s t → P s → P t)
    {s t : State} (h : step s = .next t) (hs : P s) : P t := by
  rcases step_cases h with ⟨_, rfl⟩ | ⟨c, rest, _, he⟩
  · exact htick s hs
  · exact hcommand c _ t (within_of_exec he) (htake s rest hs)

end Sys2Proof.Machine

namespace Sys2Proof

open Sys2Proof.Machine

/-- Settles O3: each command goes on, and an empty queue passes a clock unit. -/
theorem everyCommandGoesOn : Obligations.EveryCommandGoesOn := by
  have hexec (c : Instr) (s : State) : ∃ t : State, exec c s = .next t := (exec_within c s).imp fun _ h => h.1
  refine ⟨hexec, fun s => ?_⟩
  cases hq : s.pending with
  | nil => exact ⟨tick s, by rw [step, hq]⟩
  | cons c rest => exact (queueFrontRuns c rest s hq).symm ▸ hexec c _

/-- Settles O5: each part of a command leaves what the command does not own. -/
theorem clockStoreServiceFrame : Obligations.ClockStoreServiceFrame := fun _ _ _ h =>
  have k := within_of_exec h
  ⟨k.now, k.pending, k.clock, k.store, k.service, k.draws, k.frameClock⟩

/-- Settles O6. -/
theorem linkConfigurationFrame : Obligations.LinkConfigurationFrame := fun _ _ _ h =>
  have k := within_of_exec h
  ⟨k.straps, k.station, k.link, k.cfg⟩

/-- Settles O7: the right to change a point's qualification is the command's, and its own point's. -/
theorem pointForceFrame : Obligations.PointForceFrame := fun _ _ _ h =>
  have k := within_of_exec h
  ⟨k.raw, fun p hc => k.pt p fun m => of_true_of_false m.1 hc,
    fun q p v hc hne => k.pt p fun m => hne (Fin.ext (congrArg Fin.val (m.2 q v hc) :)), k.forces, k.decay⟩

/-- Settles O8. -/
theorem unitPanelOutputFrame : Obligations.UnitPanelOutputFrame := fun _ _ _ h =>
  have k := within_of_exec h
  ⟨k.un, fun hc p => k.pan p fun m => of_true_of_false m.1 hc,
    fun q p bs hc hne => k.pan p fun m => hne (m.2 q bs hc), k.manual, k.readback, k.fault⟩

/-- Settles O9: the log grows by records handed to it, and news flags are set alone. -/
theorem logNewsFrame : Obligations.LogNewsFrame := fun _ _ _ h => ⟨(within_of_exec h).records, (within_of_exec h).news⟩

/-- Settles O11. -/
theorem logLawKept : Obligations.LogLawKept := fun _ _ hs h =>
  step_keeps (P := fun s => s.log.law) (fun _ h => h) (fun _ _ h => h) (fun _ _ _ k => k.logLaw) h hs

/-- Settles O14. -/
theorem groupLawKept : Obligations.GroupLawKept := fun _ _ hs h =>
  step_keeps (P := State.groupLaw) (fun _ h => h) (fun _ _ h => h) (fun _ _ _ k => k.groupLaw) h hs

/-- Settles O20. -/
theorem dayTimeLawKept : Obligations.DayTimeLawKept := fun _ _ hs h =>
  step_keeps (P := State.dayTimeLaw) (fun _ => tick_dayTimeLaw) (fun _ _ h => h) (fun _ _ _ k => k.dayTimeLaw) h hs

end Sys2Proof

/-! Laws that the handing on of changes keeps at each of its stages, and the law of the call sets (R97). -/
namespace Sys2Proof.Machine

/-! ### Call sets -/

/-- A SEQ-S window is QUIET or HELD (R42). -/
def State.seqSLaw (s : State) : Prop :=
  ∀ w : Fin 192, s.cfg.windows[w].seq = .seqS → s.win[w] = .quiet ∨ s.win[w] = .held

/-- Every class in the panel's call set is the class of a window in ALERT on its list. -/
def State.callsStand (s : State) (p : Fin 4) : Prop :=
  ∀ c : WindowClass, s.pan[p].calls.has c = true → s.alertOn p c = true

/-! ### Windows -/

section
variable {s : State}

theorem alertOn_iff (s : State) (p : Fin 4) (c : WindowClass) : s.alertOn p c = true ↔
    ∃ w ∈ s.cfg.panels[p].positions, s.win[w] = .alert ∧ s.cfg.windows[w].cls = c := by
  unfold State.alertOn
  simp only [List.any_eq_true, Bool.and_eq_true, beq_iff_eq]

end

end Sys2Proof.Machine

/-! What Trip Logic and the Output Stage stand on, what leaves it alone, and the equations at rest (R123). -/
namespace Sys2Proof.Machine

/-! ### Equations at rest -/

/-- Every equation is UNUSED (R123). -/
def State.atRest (s : State) : Prop := ∀ k : Fin 32, s.eqn[k].state = .unused

/-! ### Operations on one equation -/

/-- The record of an equation is written, and no pending record is held. -/
noncomputable def setEquationRecord (k : Fin 32) (e : EquationRecord) (s : State) : State :=
  (s.setCfg { s.cfg with equations := s.cfg.equations.set k.val e k.isLt }).modEqn k fun r =>
    { r with staged := none, overwrite := false }

end Sys2Proof.Machine

/-! The reading of frames (09 section 9.1). -/
namespace Sys2Proof.Machine

section

/-- Two bytes are a word exactly where they read as its number. -/
theorem bytes_eq_le16_iff (x y : Byte) {n : Nat} (h : n < 65536) :
    [x, y] = le16 n ↔ x.toNat + 256 * y.toNat = n := by
  have value (m : Nat) : (byteOf m).toNat = m % 256 := BitVec.toNat_ofNat m 8
  constructor
  · intro hl
    injection hl with hx hl
    injection hl with hy
    rw [hx, hy, value, value, ← Nat.mod_mul (a := 256) (b := 256)]
    exact Nat.mod_eq_of_lt h
  · rintro rfl
    refine congrArg₂ (fun a b => [a, b]) (BitVec.eq_of_toNat_eq ?_) (BitVec.eq_of_toNat_eq ?_)
    · rw [value, Nat.add_mul_mod_self_left, Nat.mod_eq_of_lt x.isLt]
    · rw [value, Nat.add_mul_div_left _ _ (by decide), Nat.div_eq_of_lt x.isLt, Nat.zero_add, Nat.mod_eq_of_lt y.isLt]

/-- The last two bytes of a list are a word exactly where they read as its number. -/
theorem drop_eq_le16_iff {f : List Byte} {n : Nat} (h : f.length = n + 2) (c : Word) :
    f.drop n = le16 c.toNat ↔ rd16 f n = c.toNat := by
  have h1 : n + 1 < f.length := h ▸ Nat.lt_succ_self _
  have h0 : n < f.length := Nat.lt_of_succ_lt h1
  have hd : f.drop n = [f.getD n 0#8, f.getD (n + 1) 0#8] := by
    rw [List.drop_eq_getElem_cons h0, List.drop_eq_getElem_cons h1, List.drop_eq_nil_of_le (Nat.le_of_eq h),
      List.getD_eq_getElem _ _ h0, List.getD_eq_getElem _ _ h1]
  rw [hd]
  exact bytes_eq_le16_iff _ _ c.isLt

/-- Bytes end in the check word over those before it (R152). -/
theorem withCheck_take_iff {f : List Byte} {n : Nat} (h : f.length = n + 2) :
    withCheck (f.take n) = f ↔ rd16 f n = (crc16 (f.take n)).toNat := by
  rw [← drop_eq_le16_iff h, withCheck]
  conv_lhs => rhs; rw [← List.take_append_drop n f]
  rw [List.append_right_inj, eq_comm]

end

end Sys2Proof.Machine

/-! The timers: when each has run out, and what one clock unit queues (log entries 1 and 2). -/
namespace Sys2Proof.Machine

section Timers

variable (s : State)

theorem dueSince_iff {start : Option Nat} {d now : Nat} : dueSince start d now = true ↔ ranOut now start d := by
  simp [dueSince, ranOut, Option.any_eq_true]

theorem dueOpt_iff {timer : Option Timer} {now : Nat} :
    Timer.dueOpt timer now = true ↔ ∃ x : Timer, timer = some x ∧ x.start + x.dur ≤ now := by
  simp [Timer.dueOpt, Timer.due, Option.any_eq_true]

theorem debounceDue_iff (p : Fin 268) (e : TimeStamp) : s.debounceDue p = some e ↔
    ∃ d : Debounce, s.pt[p].debounce = some d ∧ d.edge = e ∧ d.start + 10 * s.cfg.points[p].debounce ≤ s.now := by
  unfold State.debounceDue State.debounceUnits
  rw [Nat.mul_comm]
  cases s.pt[p].debounce with
  | none => simp
  | some d =>
    by_cases h : d.start + 10 * s.cfg.points[p].debounce ≤ s.now <;>
      simp [h, Config.unitsPerMs, and_comm]

theorem decayDue_iff : s.decayDue = true ↔ ranOut s.now s.decay (10 * s.cfg.settings.decay) := by
  rw [State.decayDue, dueSince_iff, Nat.mul_comm]

theorem forceDue_iff (p : Fin 268) : s.forceDue p = true ↔
    ∃ e ∈ s.forces, e.point = p ∧ e.start + 600000 * e.minutes ≤ s.now := by
  simp [State.forceDue, Config.unitsPerMinute, Nat.mul_comm]

theorem groupDue_iff (g : Fin 16) : s.groupDue g = true ↔ s.grp[g].state = .settling ∧
    ∃ x : Timer, s.grp[g].timer = some x ∧ x.start + x.dur ≤ s.now := by
  rw [State.groupDue, Bool.and_eq_true, beq_iff_eq, dueOpt_iff]

theorem periodDue_iff : s.periodDue = true ↔
    s.frameClock.begun = false ∨ s.frameClock.start + 400 ≤ s.now := by
  simp [State.periodDue, Config.framePeriod]

theorem waitOver_iff (p : Fin 4) : s.waitOver p = true ↔ ranOut s.now s.pan[p].exchange 100 :=
  dueSince_iff

theorem testDue_iff (p : Fin 4) : s.testDue p = true ↔
    ∃ x : RequestedTest, s.pan[p].test = some x ∧ x.start + 10000 * x.seconds ≤ s.now := by
  simp [State.testDue, Option.any_eq_true, Config.unitsPerSecond, Nat.mul_comm]

theorem chimeDue_iff (p : Fin 4) : s.chimeDue p = true ↔
    ∃ b : Nat, s.pan[p].horn = .chime b ∧ b + 10000 ≤ s.now := by
  unfold State.chimeDue
  cases s.pan[p].horn <;> simp [Config.chimeLength]

theorem pulseDue_iff (o : Fin 16) : s.pulseDue o = true ↔
    ∃ x : Timer, s.out[o].pulse = some x ∧ x.start + x.dur ≤ s.now := dueOpt_iff

theorem verifyDue_iff (o : Fin 16) : s.verifyDue o = true ↔
    ∃ x : Timer, s.out[o].verify = some x ∧ x.start + x.dur ≤ s.now := dueOpt_iff

theorem watchDue_iff : s.watchDue = true ↔ ranOut s.now s.clock.watch 1500000 := dueSince_iff

theorem silenceDue_iff : s.silenceDue = true ↔
    ranOut s.now s.link.silence (10000 * s.cfg.settings.silence) := by
  rw [State.silenceDue, dueSince_iff, Nat.mul_comm]

end Timers

end Sys2Proof.Machine

/-! The ends of tests, chimes, pulses and watches, and the comparison of readbacks. -/
namespace Sys2Proof.Machine

/-! ### News flags while changes are handed on -/

theorem sysTransition_newsStand (startup : Bool) (k : Fin 12) (v : Bool) (s : State) :
    newsStand s.news (sysTransition startup k v s).news := by
  obtain ⟨b, -, h⟩ := sysTransition_ripple startup k v s
  split at h
  · exact h.newsStand
  · exact h.newsStand

theorem sysFollow_newsStand (startup : Bool) (k : Fin 12) (s : State) :
    newsStand s.news (sysFollow startup k s).news := by
  rcases sysFollow_cases startup k s with ⟨h, -⟩ | ⟨-, h⟩
  · rw [h]; exact .refl _
  · rw [h]; exact sysTransition_newsStand _ _ _ _

/-! ### The record of a system point's transition -/

/-- A point other than that of the log that makes its transition writes its POINT record first (R13). -/
theorem sysFollow_records {k : Fin 12} (hk : k ≠ 5) {s : State} (hf : s.follows k = false) (h : s.room 1) :
    s.records (sysFollow false k s) 0 s.stamp (sysRecord false k (s.sysCond k) s.stamp) := by
  rcases sysFollow_cases false k s with h' | h'
  · rw [hf] at h'; exact absurd h'.2 (by decide)
  rw [h'.2]
  unfold sysTransition
  extract_lets cause t b p s1
  rw [if_neg hk]
  have hr : s.records s1 0 s.stamp b := record_records (s := s.setSys k (s.sysCond k)) h b
  exact (hr.kept rfl (handTerm_ripple _ _ _).kept).kept rfl (evalActive_ripple _ _ _ _).kept

/-! ### Pulses -/

theorem endPulse_eq (o : Fin 16) (s : State) :
    endPulse o s = s.modOut o fun r =>
      { r with
        pulse := none
        commanded := false
        verify :=
          if r.commanded then
            if s.cfg.outputs[o].readback then some ⟨s.now, s.cfg.outputs[o].verify * 10⟩ else none
          else r.verify } := by
  rw [endPulse, setCommanded_eq, modOut_modOut]
  apply modOut_congr
  unfold OutputRun.driven
  rw [Nat.mul_comm]
  cases s.out[o].commanded with
  | false => rfl
  | true => rfl

/-! ### Readbacks -/

section
variable (o : Fin 16) (s : State)

theorem compareOutput_rests
    (h : s.cfg.outputs[o].readback = false ∨ s.out[o].readback = s.out[o].commanded ∨ s.out[o].fault = true) :
    compareOutput o s = s := by
  rcases h with h | h | h
  · exact if_neg (by rw [h]; exact Bool.false_ne_true)
  · have ha : s.out[o].agrees = true := beq_iff_eq.mpr h
    exact if_neg (by rw [ha, Bool.not_true, Bool.and_false]; exact Bool.false_ne_true)
  · exact (ite_congr rfl (fun _ => if_pos h) fun _ => rfl).trans (ite_self _)

/-- A first disagreement of an output, with its record, its news and its system point (R130, R131). -/
structure Faulted (o : Fin 16) (s t : State) : Prop where
  fault : t.out[o].fault = true
  news : t.news[s.cfg.outputs[o].unit].fault = true
  point : t.pt[sysPoint 6].qual = .abnormal
  record : s.room 1 → s.records t 0 s.stamp (.output o .fault)
  kept : Kept 256 (s.modOut o fun r => { r with fault := true }) t

theorem compareOutput_faults (hb : s.cfg.outputs[o].readback = true)
    (hd : s.out[o].readback ≠ s.out[o].commanded) (hf : s.out[o].fault = false) :
    Faulted o s (compareOutput o s) := by
  have ha : s.out[o].agrees = false := beq_eq_false_iff_ne.mpr hd
  rw [show compareOutput o s = sysFollow false 6
      (((s.modOut o fun r => { r with fault := true }).record (.output o .fault)).setNews
        s.cfg.outputs[o].unit .fault) from
    (if_pos (by rw [hb, ha]; rfl)).trans (if_neg (by rw [hf]; exact Bool.false_ne_true))]
  generalize hs1 : (s.modOut o fun r => { r with fault := true }).record (.output o .fault) = s1
  have k1 : Ripple (s.modOut o fun r => { r with fault := true }) s1 := hs1 ▸ record_ripple _ _
  have k2 : Ripple _ (s1.setNews s.cfg.outputs[o].unit .fault) :=
    k1.tail (.trip (.news s1 s.cfg.outputs[o].unit .fault))
  have k3 := sysFollow_kept false 6 (s1.setNews s.cfg.outputs[o].unit .fault)
  have hfault : (s1.setNews s.cfg.outputs[o].unit .fault).out[o].fault = true := by
    rw [(k2.kept.out o).2.2, modOut_out_self]
  refine ⟨?_, ?_, ?_, fun h => ?_, (k2.kept.mono (by omega)).trans k3⟩
  · rw [(k3.out o).2.2, hfault]
  · have hn : (s1.setNews s.cfg.outputs[o].unit .fault).news[s.cfg.outputs[o].unit].fault = true := by
      rw [setNews_def, modNews_news_self]
      rfl
    exact (sysFollow_newsStand false 6 _ _).2.2.2 hn
  · refine PointState.eq_abnormal_of_bit ?_
    rw [sysFollow_qual_self false (by decide)]
    exact List.any_eq_true.mpr ⟨o, List.mem_finRange o, hfault⟩
  · have hr : s.records s1 0 s.stamp (.output o .fault) :=
      hs1 ▸ record_records (s := s.modOut o fun r => { r with fault := true }) h _
    exact (show s.records (s1.setNews _ _) 0 _ _ from hr).kept rfl k3

/-- An update of what a comparison does not read leaves it with nothing to do. -/
theorem compareOutput_modOut_rests (f : OutputRun → OutputRun)
    (h : s.cfg.outputs[o].readback = false ∨ (f s.out[o]).readback = (f s.out[o]).commanded ∨
      (f s.out[o]).fault = true) :
    compareOutput o (s.modOut o f) = s.modOut o f :=
  compareOutput_rests o _ (by rw [modOut_out_self]; exact h)

/-- An update that leaves the outputs at odds leaves the comparison its fault. -/
theorem compareOutput_modOut_faults (f : OutputRun → OutputRun) (hb : s.cfg.outputs[o].readback = true)
    (hd : (f s.out[o]).readback ≠ (f s.out[o]).commanded) (hf : (f s.out[o]).fault = false) :
    Faulted o (s.modOut o f) (compareOutput o (s.modOut o f)) :=
  compareOutput_faults o _ hb (by rw [modOut_out_self]; exact hd) (by rw [modOut_out_self]; exact hf)

end

end Sys2Proof.Machine

namespace Sys2Proof

open Sys2Proof.Machine

/-- What an injective form of a value gives is said of that value alone. -/
theorem exists_eq_and_iff {α β : Type} {f : α → β} {P : α → Prop} (hf : ∀ x y, f x = f y → x = y) {b : β} {x : α}
    (h : b = f x) : (∃ y, b = f y ∧ P y) ↔ P x :=
  ⟨fun ⟨y, hy, hp⟩ => hf x y (h.symm.trans hy) ▸ hp, fun hp => ⟨x, h, hp⟩⟩

/-- Settles O34. -/
theorem testsChimesAndPulsesEnd : Obligations.TestsChimesAndPulsesEnd := by
  refine ⟨fun p s => ⟨fun x hx => ?_, fun hn => ?_, fun b hb => ?_, fun hn => ?_⟩,
    fun o s => ⟨pulseDue_iff s o, fun h => ?_, fun h => ?_⟩⟩
  · exact if_congr ((testDue_iff s p).trans (exists_eq_and_iff (fun _ _ => Option.some.inj) hx)) rfl rfl
  · exact if_neg fun h => absurd (hn.symm.trans ((testDue_iff s p).mp h).choose_spec.1) nofun
  · exact if_congr ((chimeDue_iff s p).trans (exists_eq_and_iff (fun _ _ => Horn.chime.inj) hb)) rfl rfl
  · exact if_neg fun h => hn _ ((chimeDue_iff s p).mp h).choose_spec.1
  · exact if_neg (Bool.eq_false_iff.mp h)
  · exact (if_pos h).trans (congrArg _ (endPulse_eq o s))

/-- Settles O35. -/
theorem readbackIsVerified : Obligations.ReadbackIsVerified := by
  intro o s _ c r faults
  have hfaults {s' t : State} (h : Faulted o s' t) (hc : s'.cfg = s.cfg) (hl : s'.log = s.log)
      (hs : s'.stamp = s.stamp) : faults t := by
    have hn := h.news
    simp only [hc] at hn
    refine ⟨h.fault, hn, h.point, fun hroom => ?_⟩
    have := h.record (by unfold State.room at hroom ⊢; rwa [hl])
    unfold State.records at this ⊢
    rwa [hl, hs] at this
  refine ⟨verifyDue_iff s o, fun h => ?_, fun h => ⟨fun hr => ?_, fun hb hd hf => ?_⟩,
    fun level => ⟨fun hl => ?_, fun hl => ⟨fun hr => ?_, fun hv hb hd hf => ?_⟩⟩⟩
  · exact if_neg (Bool.eq_false_iff.mp h)
  · exact (if_pos h).trans (congrArg _ (compareOutput_modOut_rests o s _ hr))
  · exact ⟨endVerify o s, if_pos h, hfaults (compareOutput_modOut_faults o s _ hb hd hf) rfl rfl rfl⟩
  · exact congrArg _ (if_pos hl)
  · refine congrArg _ ((if_neg hl).trans ?_)
    rcases hr with hv | hr
    · exact if_neg fun hn => by
        rw [modOut_out_self] at hn
        rw [show r.verify = none from Option.isNone_iff_eq_none.mp hn] at hv
        cases hv
    · exact (ite_congr rfl (fun _ => compareOutput_modOut_rests o s _ hr) fun _ => rfl).trans (ite_self _)
  · have e : readbackLevel o level s = compareOutput o (s.modOut o fun r => { r with readback := level }) :=
      (if_neg hl).trans (if_pos (by rw [modOut_out_self]; exact Option.isNone_iff_eq_none.mpr hv))
    have k := compareOutput_modOut_faults o s (fun r => { r with readback := level }) hb hd hf
    refine ⟨_, rfl, ?_, ?_⟩
    · rw [e, (k.kept.out o).2.1, modOut_out_self, modOut_out_self]
    · rw [e]; exact hfaults k rfl rfl rfl

/-- Settles O37. -/
theorem watchAndSilenceExpire : Obligations.WatchAndSilenceExpire := by
  intro s
  refine ⟨watchDue_iff s, silenceDue_iff s, fun h => ?_, fun h => ⟨freeClock .lapse s, ?_, freeClock_clock _ _,
    freeClock_qual _ _, freeClock_records _ _⟩, fun h => ?_, fun h => ?_⟩
  · exact if_neg (Bool.eq_false_iff.mp h)
  · exact if_pos h
  · exact if_neg (Bool.eq_false_iff.mp h)
  · refine ⟨_, if_pos h, (sysFollow_kept false 9 _).link, ?_, fun hs hq hroom => ?_⟩
    · exact PointState.eq_abnormal_of_bit (sysFollow_qual_self false (by decide) _)
    · have hold : s.pt[sysPoint 9].qual.bit = false := (beq_iff_eq.mp (hs 9)).trans hq
      exact sysFollow_records (k := 9) (by decide) (beq_eq_false_iff_ne.mpr fun e =>
        absurd (hold.symm.trans e : false = true) Bool.false_ne_true) hroom

end Sys2Proof

/-! The frame clock, the lamp frames, and the replies and misses of the panels (R81 to R85). -/
namespace Sys2Proof.Machine

/-! ### Updates of panels -/

/-- Two updates of one panel are one. -/
theorem modPan_modPan (s : State) (p : Fin 4) (f g : PanelRun → PanelRun) :
    (s.modPan p f).modPan p g = s.modPan p fun r => g (f r) := by
  simp [State.modPan]

theorem modPan_congr {s : State} {p : Fin 4} {f g : PanelRun → PanelRun} (h : f s.pan[p] = g s.pan[p]) :
    s.modPan p f = s.modPan p g :=
  congrArg (fun r => s.modPan p fun _ => r) h

theorem modPan_same {s : State} {p : Fin 4} {f : PanelRun → PanelRun} (h : f s.pan[p] = s.pan[p]) :
    s.modPan p f = s := by
  unfold State.modPan
  rw [h, Fin.getElem_fin, Vector.set_getElem_self]

/-! ### Lamp frames -/

/-- `t` differs from `s` in its panels alone, and in none of them in what a LAMP frame is formed from. -/
def SameLamps (s t : State) : Prop :=
  OnlyPanels s t ∧ ∀ p : Fin 4, t.pan[p].keyTest = s.pan[p].keyTest ∧ t.pan[p].test = s.pan[p].test ∧
    t.pan[p].brightness = s.pan[p].brightness

theorem SameLamps.refl (s : State) : SameLamps s s := ⟨.refl s, fun _ => ⟨rfl, rfl, rfl⟩⟩

/-- The LAMP frame of a panel with the runtime fields `r`. -/
noncomputable def lampFrameOf (s : State) (p : Fin 4) (r : PanelRun) : List Byte :=
  withCheck ([0xA5#8, s.frameClock.phase, byteOf (if r.keyTest || r.test.isSome then 8 else r.brightness)] ++
    (List.range 64).map fun k =>
      let w := s.cfg.panels[p].positions[k]?
      if r.tested k then lampByte .steady ((w.map fun w => s.cfg.windows[w].colour).getD .white)
      else (w.map s.lampCode).getD (lampByte .off .white))

theorem lampFrame_eq (s : State) (p : Fin 4) : s.lampFrame p = lampFrameOf s p s.pan[p] := rfl

theorem lampFrameOf_congr (s : State) (p : Fin 4) {r r' : PanelRun} (hk : r.keyTest = r'.keyTest)
    (ht : r.test = r'.test) (hb : r.brightness = r'.brightness) : lampFrameOf s p r = lampFrameOf s p r' := by
  unfold lampFrameOf PanelRun.tested
  rw [hk, ht, hb]

theorem SameLamps.lampFrame {s t : State} (h : SameLamps s t) (p : Fin 4) : t.lampFrame p = s.lampFrame p := by
  obtain ⟨e, hp⟩ := h
  obtain ⟨hk, ht, hb⟩ := hp p
  have he : { t with pan := s.pan } = s := e
  have hs := congrArg (fun x => lampFrameOf x p s.pan[p]) he
  exact (lampFrameOf_congr t p hk ht hb).trans hs

theorem SameLamps.modPan {s t : State} (h : SameLamps s t) (p : Fin 4) {f : PanelRun → PanelRun}
    (hf : ∀ r, (f r).keyTest = r.keyTest ∧ (f r).test = r.test ∧ (f r).brightness = r.brightness) :
    SameLamps s (t.modPan p f) := by
  obtain ⟨e, hp⟩ := h
  refine ⟨e, fun q => ?_⟩
  by_cases hq : q = p
  · subst hq
    obtain ⟨h1, h2, h3⟩ := hf t.pan[q]
    obtain ⟨k1, k2, k3⟩ := hp q
    rw [modPan_pan_self]
    exact ⟨h1.trans k1, h2.trans k2, h3.trans k3⟩
  · rw [modPan_pan_other _ _ _ _ hq]
    exact hp q

/-- A frame has been sent, and the fascia may have received it (R81). -/
noncomputable def PanelRun.sent (r : PanelRun) (arrives : Bool) (frame : List Byte) (now : Nat) : PanelRun :=
  { r with lastFrame := some frame, exchange := some now,
           fascia := if arrives then Fascia.receive r.fascia frame now else r.fascia }

/-- The count of the periods since the panel became LOST (R81). -/
noncomputable def PanelRun.lostAt (r : PanelRun) (n : Nat) : PanelRun := { r with lostFor := n }

/-- What one period makes of a panel: the frame it would have been sent, and the fascia that the frame may
or may not have reached (R81). -/
noncomputable def PanelRun.period (r : PanelRun) (arrives : Bool) (frame : List Byte) (now : Nat) : PanelRun :=
  match r.link with
  | .disabled => r
  | .starting | .up => r.sent arrives frame now
  | .lost =>
    if r.lostFor + 1 < 25 then r.lostAt (r.lostFor + 1) else (r.lostAt 0).sent arrives frame now

section
variable {r : PanelRun} (arrives : Bool) (frame : List Byte) (now : Nat)

theorem PanelRun.period_disabled (h : r.link = .disabled) : r.period arrives frame now = r := by
  unfold PanelRun.period
  rw [h]

theorem PanelRun.period_sent (h : r.link = .starting ∨ r.link = .up) :
    r.period arrives frame now = r.sent arrives frame now := by
  unfold PanelRun.period
  rcases h with h | h <;> rw [h]

theorem PanelRun.period_lost (h : r.link = .lost) : r.period arrives frame now =
    if r.lostFor + 1 < 25 then r.lostAt (r.lostFor + 1) else (r.lostAt 0).sent arrives frame now := by
  unfold PanelRun.period
  rw [h]

theorem PanelRun.period_lamps (r : PanelRun) (arrives : Bool) (frame : List Byte) (now : Nat) :
    (r.period arrives frame now).keyTest = r.keyTest ∧ (r.period arrives frame now).test = r.test ∧
      (r.period arrives frame now).brightness = r.brightness := by
  cases h : r.link with
  | disabled => rw [period_disabled _ _ _ h]; exact ⟨rfl, rfl, rfl⟩
  | starting => rw [period_sent _ _ _ (.inl h)]; exact ⟨rfl, rfl, rfl⟩
  | up => rw [period_sent _ _ _ (.inr h)]; exact ⟨rfl, rfl, rfl⟩
  | lost =>
    rw [period_lost _ _ _ h]
    by_cases hn : r.lostFor + 1 < 25
    · rw [if_pos hn]; exact ⟨rfl, rfl, rfl⟩
    · rw [if_neg hn]; exact ⟨rfl, rfl, rfl⟩

end

theorem sendLamp_eq (arrives : Bool) (p : Fin 4) (s : State) :
    sendLamp arrives p s = s.modPan p fun r => r.sent arrives (s.lampFrame p) s.now := rfl

theorem sendLamp_period (arrives : Bool) (p : Fin 4) (s : State)
    (h : s.pan[p].link = .starting ∨ s.pan[p].link = .up) :
    sendLamp arrives p s = s.modPan p fun r => r.period arrives (s.lampFrame p) s.now :=
  modPan_congr (f := fun r => r.sent arrives (s.lampFrame p) s.now) (PanelRun.period_sent _ _ _ h).symm

theorem panelPeriod_eq (arrives : Bool) (p : Fin 4) (s : State) :
    panelPeriod arrives p s = s.modPan p fun r => r.period arrives (s.lampFrame p) s.now := by
  unfold panelPeriod
  cases h : s.pan[p].link with
  | disabled => exact (modPan_same (PanelRun.period_disabled _ _ _ h)).symm
  | starting => exact sendLamp_period arrives p s (.inl h)
  | up => exact sendLamp_period arrives p s (.inr h)
  | lost =>
    have hl : (s.modPan p fun r => r.lostAt 0).lampFrame p = s.lampFrame p :=
      ((SameLamps.refl s).modPan p (f := fun r => r.lostAt 0) fun _ => ⟨rfl, rfl, rfl⟩).lampFrame p
    have hp := PanelRun.period_lost arrives (s.lampFrame p) s.now h
    by_cases hn : s.pan[p].lostFor + 1 < 25
    · rw [if_pos hn] at hp
      exact (if_pos hn).trans (modPan_congr (f := fun r => r.lostAt (r.lostFor + 1)) hp.symm)
    · rw [if_neg hn] at hp
      refine (if_neg hn).trans ((sendLamp_eq arrives p (s.modPan p fun r => r.lostAt 0)).trans ?_)
      rw [hl, modPan_modPan]
      exact modPan_congr (f := fun r => (r.lostAt 0).sent arrives (s.lampFrame p) s.now) hp.symm

/-- Every panel takes the period by its own link state. -/
theorem each_panelPeriod (arrives : Fin 4 → Bool) (s : State) (p : Fin 4) :
    (each 4 (fun p s => panelPeriod (arrives p) p s) s).pan[p] =
      s.pan[p].period (arrives p) (s.lampFrame p) s.now := by
  refine each_view (P := SameLamps s) (view := fun (t : State) (q : Fin 4) => t.pan[q])
    (g := fun q r => r.period (arrives q) (s.lampFrame q) s.now)
    (f := fun p s => panelPeriod (arrives p) p s) (fun t q ht => ?_) (fun t q ht => ?_) (fun t q b ht hb => ?_)
    s (.refl s) p
  · rw [panelPeriod_eq]
    exact ht.modPan q fun r => r.period_lamps _ _ _
  · rw [panelPeriod_eq, modPan_pan_self, ht.lampFrame, ht.1.now]
  · rw [panelPeriod_eq, modPan_pan_other _ _ _ _ hb]

theorem each_panelPeriod_frameClock (arrives : Fin 4 → Bool) (s : State) :
    (each 4 (fun p s => panelPeriod (arrives p) p s) s).frameClock = s.frameClock :=
  each_inv (P := fun t => t.frameClock = s.frameClock) (fun p t ht => by rw [panelPeriod_eq]; exact ht) s rfl

theorem FrameClock.next_eq (c : FrameClock) : c.next =
    if c.begun = true then { phase := c.phase + 1, begun := true, start := c.start + 400 }
    else { c with begun := true } := by
  obtain ⟨ph, b, n⟩ := c
  cases b with
  | false => rfl
  | true => rfl

theorem ite_fascia (x : Bool) (f g : Option Fascia) :
    (if x then g else f) = f ∨ (if x then g else f) = g := by
  cases x
  · exact .inl rfl
  · exact .inr rfl

end Sys2Proof.Machine

namespace Sys2Proof

open Sys2Proof.Machine

/-- Settles O29. -/
theorem framePeriodSendsLampFrames : Obligations.FramePeriodSendsLampFrames := by
  refine ⟨fun old f now hf => ?_, fun s => ⟨periodDue_iff s, fun h => ?_, fun h => ?_⟩⟩
  · exact if_congr (withCheck_take_iff (n := 67) hf) rfl rfl
  · exact if_neg (Bool.eq_false_iff.mp h)
  · refine ⟨beginPeriod s, if_pos h, (each_panelPeriod_frameClock (Config.lampFrameArrives s.draws) _).trans
      (FrameClock.next_eq s.frameClock), fun p => ?_⟩
    intro r frame sent
    have hclock : (beginPeriod s).frameClock = s.frameClock.next := each_panelPeriod_frameClock _ _
    have hframe : State.lampFrame { s with draws := s.draws + 1, frameClock := s.frameClock.next } p = frame :=
      congrArg (fun c => State.lampFrame { s with frameClock := c } p) hclock.symm
    have hpan : (beginPeriod s).pan[p] = r.period (Config.lampFrameArrives s.draws p) frame s.now :=
      (each_panelPeriod _ _ p).trans (congrArg (fun f => r.period _ f s.now) hframe)
    have hsent := ite_fascia (Config.lampFrameArrives s.draws p) r.fascia (Fascia.receive r.fascia frame s.now)
    refine ⟨fun hl => ?_, fun hl => ⟨_, hsent, ?_⟩, fun hl hn => ?_, fun hl hn => ⟨_, hsent, ?_⟩⟩
    · exact hpan.trans (PanelRun.period_disabled _ _ _ hl)
    · exact hpan.trans (PanelRun.period_sent _ _ _ hl)
    · exact hpan.trans ((PanelRun.period_lost _ _ _ hl).trans (if_pos hn))
    · exact hpan.trans ((PanelRun.period_lost _ _ _ hl).trans (if_neg (Nat.not_lt.mpr hn)))

end Sys2Proof

/-! The link states of the panels: good replies and misses (R84, R85). -/
namespace Sys2Proof.Machine

/-! ### The fields of a KEY reply (11 section 11.5) -/

theorem goodReply_iff (bs : List Byte) : goodReply bs = true ↔
    bs.length = 6 ∧ rd8 bs 0 = 0x5A ∧ rd16 bs 4 = (crc16 (bs.take 4)).toNat := by
  have h0 (hl : bs.length = 6) : bs.head? = some 0x5A#8 ↔ rd8 bs 0 = 0x5A := by
    cases bs with
    | nil => simp at hl
    | cons b bs =>
      rw [List.head?_cons, Option.some_inj, ← BitVec.toNat_inj]
      rfl
  simp only [goodReply, Bool.and_eq_true, beq_iff_eq, and_assoc]
  refine and_congr_right fun hl => ?_
  rw [h0 hl, withCheck_take_iff (n := 4) hl]

theorem replyKeys_toNat (bs : List Byte) : (replyKeys bs).toNat = rd8 bs 1 % 16 := by
  simp [replyKeys, rd8]

theorem replyCounters_toNat (bs : List Byte) : (replyCounters bs).ack.toNat = rd8 bs 2 % 16 ∧
    (replyCounters bs).silence.toNat = rd8 bs 2 / 16 ∧ (replyCounters bs).reset.toNat = rd8 bs 3 % 16 := by
  have := rd8_lt bs 2
  refine ⟨by simp [replyCounters, rd8], ?_, by simp [replyCounters, rd8]⟩
  exact (BitVec.extractLsb'_toNat ..).trans (by
    rw [Nat.shiftRight_eq_div_pow]
    exact Nat.mod_eq_of_lt (Nat.div_lt_of_lt_mul this))

/-! ### The system point of a panel (R85) -/

section
variable (p : Fin 4) (s : State)

theorem panelPoint_ne_log : panelPoint p ≠ 5 := fun e =>
  absurd (congrArg Fin.val e : p.val = 5) (Nat.ne_of_lt (Nat.lt_succ_of_lt p.isLt))

theorem sysCond_panel : s.sysCond (panelPoint p) = (s.pan[p].link == .lost) :=
  Fin.cases (motive := fun p : Fin 4 => s.sysCond (panelPoint p) = (s.pan[p].link == .lost)) rfl
    (Fin.cases rfl (Fin.cases rfl (Fin.cases rfl fun i => i.elim0))) p

/-- A panel that becomes LOST, or ceases to be, has its system point follow, with its POINT record (R85). -/
structure PanelMoved (lost : Bool) (s t : State) : Prop where
  kept : Kept 256 s t
  point : t.pt[sysPoint (panelPoint p)].qual = PointState.ofBit lost
  record : s.room 1 → s.records t 0 s.stamp
    (.point (sysPoint (panelPoint p)) (PointState.ofBit lost) { system := true } s.stamp)

theorem sysFollow_panel {lost : Bool} (h : (s.pan[p].link == .lost) = lost)
    (hf : s.follows (panelPoint p) = false) : PanelMoved p lost s (sysFollow false (panelPoint p) s) := by
  have hc : s.sysCond (panelPoint p) = lost := (sysCond_panel p s).trans h
  refine ⟨sysFollow_kept _ _ _, ?_, fun hr => ?_⟩
  · have hq := (sysFollow_qual_self false (panelPoint_ne_log p) s).trans hc
    cases lost with
    | false => exact PointState.eq_normal_of_bit hq
    | true => exact PointState.eq_abnormal_of_bit hq
  · have hr' := sysFollow_records (panelPoint_ne_log p) hf hr
    rwa [hc] at hr'

/-- Where a panel's own link state changes to or from LOST, its system point no longer follows. -/
theorem modPan_not_follows {p : Fin 4} {s : State} {f : PanelRun → PanelRun}
    (hs : s.follows (panelPoint p) = true)
    (h : ((f s.pan[p]).link == .lost) = !(s.pan[p].link == .lost)) :
    (s.modPan p f).follows (panelPoint p) = false := by
  have hold : s.pt[sysPoint (panelPoint p)].qual.bit = (s.pan[p].link == .lost) :=
    (beq_iff_eq.mp hs).trans (sysCond_panel p s)
  rw [State.follows, sysCond_panel, modPan_pan_self, h, modPan_pt, hold]
  cases (s.pan[p].link == .lost) <;> rfl

/-- What handing on leaves of a panel: all but its call set and horn. -/
theorem Kept.panel {m : Nat} {s t : State} (h : Kept m s t) {p : Fin 4} {r : PanelRun} (hr : s.pan[p] = r) :
    { t.pan[p] with calls := r.calls, horn := r.horn } = r :=
  hr ▸ h.pan p

end

/-! ### A key test that follows the TEST key (R95) -/

/-- A key test runs or not. -/
noncomputable def PanelRun.keyed (r : PanelRun) (held : Bool) : PanelRun := { r with keyTest := held }

theorem followTestKey_kept (p : Fin 4) (s : State) :
    Ripple (s.modPan p fun r => r.keyed (testHeld s.pan[p].keys)) (followTestKey p s) := by
  unfold followTestKey
  exact .ite (recordOperator_ripple _ _ _ _) (.start _)

/-- With room in the log the start of a key test adds its record and changes nothing else but the panel. -/
theorem followTestKey_room {p : Fin 4} {s : State} {r : PanelRun} (hr : s.pan[p] = r) (h : s.room 1) :
    (followTestKey p s).win = s.win ∧ (followTestKey p s).grp = s.grp ∧
    (r.keyTest = false → testHeld r.keys = true →
      s.records (followTestKey p s) 0 s.stamp (.operator .lampTest (some p) 1)) := by
  subst hr
  have hroom : (s.modPan p fun r => r.keyed (testHeld s.pan[p].keys)).room 1 := h
  have hput := record_eq_put hroom (.operator .lampTest (some p) 1)
  by_cases hc : (testHeld s.pan[p].keys && !s.pan[p].keyTest) = true
  · have e : followTestKey p s = _ := if_pos hc
    rw [e]
    exact ⟨(congrArg State.win hput :), (congrArg State.grp hput :), fun _ _ => record_records hroom _⟩
  · have e : followTestKey p s = _ := if_neg hc
    rw [e]
    exact ⟨rfl, rfl, fun hk ht => absurd (by rw [hk, ht]; rfl) hc⟩

/-! ### Replies and misses by the link state (R84, R85) -/

/-- The wait for a reply is over. -/
noncomputable def PanelRun.waitEnded (r : PanelRun) : PanelRun := { r with exchange := none }

/-- A good reply has been read. -/
noncomputable def PanelRun.replied (r : PanelRun) (bs : List Byte) : PanelRun :=
  { r with exchange := none, seen := some (replyCounters bs), keys := replyKeys bs }

/-- A panel that answers while STARTING is UP. -/
noncomputable def PanelRun.raised (r : PanelRun) : PanelRun := { r with link := .up, misses := 0 }

/-- A LOST panel that answers is STARTING. -/
noncomputable def PanelRun.found (r : PanelRun) : PanelRun := { r with link := .starting, lostFor := 0 }

/-- The third miss of a panel that is UP. -/
noncomputable def PanelRun.dropped (r : PanelRun) : PanelRun :=
  { r with link := .lost, misses := 0, keyTest := false, lostFor := 0 }

section
variable {p : Fin 4} {bs : List Byte} {s : State} {l : LinkState}

theorem waitEnded_link (h : s.pan[p].link = l) : (s.modPan p PanelRun.waitEnded).pan[p].link = l := by
  rw [modPan_pan_self]
  exact h

/-- A good reply of a panel whose link state is `l`. -/
noncomputable def takeReplyAt (l : LinkState) (p : Fin 4) (bs : List Byte) (s : State) : State :=
    match l with
    | .disabled => s.modPan p PanelRun.waitEnded
    | .starting =>
      let x := recordReply p bs (s.modPan p PanelRun.waitEnded)
      if s.settle.isSome then x else followTestKey p (x.modPan p PanelRun.raised)
    | .up =>
      followTestKey p (recordReply p bs (takePresses p (s.pan[p].seen.getD (replyCounters bs)) (replyCounters bs)
        ((s.modPan p PanelRun.waitEnded).modPan p fun r => { r with misses := 0 })))
    | .lost =>
      sysFollow false (panelPoint p) ((recordReply p bs (s.modPan p PanelRun.waitEnded)).modPan p PanelRun.found)

theorem takeReply_of_link (h : s.pan[p].link = l) : takeReply p bs s = takeReplyAt l p bs s :=
  congrArg (takeReplyAt · p bs s) (waitEnded_link h)

theorem recordReply_waitEnded : recordReply p bs (s.modPan p PanelRun.waitEnded) = s.modPan p (·.replied bs) :=
  modPan_modPan s p _ _

theorem takeReply_settling (h : s.pan[p].link = .starting) (hs : s.settle.isSome = true) :
    takeReply p bs s = s.modPan p (·.replied bs) :=
  (takeReply_of_link h).trans ((if_pos hs).trans recordReply_waitEnded)

theorem takeReply_starting (h : s.pan[p].link = .starting) (hs : s.settle = none) :
    takeReply p bs s = followTestKey p (s.modPan p fun r => (r.replied bs).raised) := by
  refine (takeReply_of_link h).trans ((if_neg (by rw [hs]; exact Bool.false_ne_true)).trans ?_)
  rw [recordReply_waitEnded, modPan_modPan]

theorem takeReply_lost (h : s.pan[p].link = .lost) :
    takeReply p bs s = sysFollow false (panelPoint p) (s.modPan p fun r => (r.replied bs).found) := by
  refine (takeReply_of_link h).trans (congrArg (sysFollow false (panelPoint p)) ?_)
  rw [recordReply_waitEnded, modPan_modPan]

/-- A miss of a panel whose link state is `l`. -/
noncomputable def takeMissAt (l : LinkState) (p : Fin 4) (s : State) : State :=
    let x := s.modPan p PanelRun.waitEnded
    match l with
    | .up => if x.pan[p].misses + 1 < 3 then x.modPan p fun r => { r with misses := r.misses + 1 } else losePanel p x
    | .disabled | .starting | .lost => x

theorem takeMiss_of_link (h : s.pan[p].link = l) : takeMiss p s = takeMissAt l p s :=
  congrArg (takeMissAt · p s) (waitEnded_link h)

theorem takeMiss_other (h : s.pan[p].link ≠ .up) : takeMiss p s = s.modPan p PanelRun.waitEnded := by
  cases hl : s.pan[p].link with
  | up => exact absurd hl h
  | disabled => exact takeMiss_of_link hl
  | starting => exact takeMiss_of_link hl
  | lost => exact takeMiss_of_link hl

theorem takeMiss_counted (h : s.pan[p].link = .up) (hn : s.pan[p].misses + 1 < 3) :
    takeMiss p s = s.modPan p fun r => { r with exchange := none, misses := r.misses + 1 } :=
  (takeMiss_of_link h).trans ((if_pos (by rw [modPan_pan_self]; exact hn)).trans (modPan_modPan s p _ _))

theorem takeMiss_loses (h : s.pan[p].link = .up) (hn : ¬ s.pan[p].misses + 1 < 3) :
    takeMiss p s = sysFollow false (panelPoint p) (s.modPan p fun r => r.waitEnded.dropped) :=
  (takeMiss_of_link h).trans ((if_neg (by rw [modPan_pan_self]; exact hn)).trans
    (congrArg (sysFollow false (panelPoint p)) (modPan_modPan s p PanelRun.waitEnded PanelRun.dropped)))

end

/-- What following the TEST key leaves of a panel, and its key test. -/
theorem followTestKey_panel {p : Fin 4} {s t : State} (ht : followTestKey p s = t) {r : PanelRun} (hr : s.pan[p] = r) :
    { t.pan[p] with calls := r.calls, horn := r.horn } = r.keyed (testHeld r.keys) := by
  subst ht hr
  exact (followTestKey_kept p s).kept.panel (modPan_pan_self _ _ _)

end Sys2Proof.Machine

namespace Sys2Proof

open Sys2Proof.Machine

/-- Settles O31. -/
theorem goodReplyMovesLink : Obligations.GoodReplyMovesLink := by
  refine ⟨fun bs => ⟨goodReply_iff bs, replyKeys_toNat bs, replyCounters_toNat bs⟩,
    fun s p => ⟨rfl, ?_⟩, fun p bs s hs => ⟨fun h => ?_, fun hw hg => ?_⟩⟩
  · simp [State.waiting, Option.any_eq_true, Config.replyWait]
  · refine if_neg fun e => ?_
    obtain ⟨hw, hg⟩ := (Bool.and_eq_true _ _).mp e
    rcases h with h | h
    · exact absurd (h.symm.trans hw) Bool.false_ne_true
    · exact absurd (h.symm.trans hg) Bool.false_ne_true
  have hexec : exec (.keyReply p bs) s = .next (takeReply p bs s) := if_pos (by rw [hw, hg]; rfl)
  refine ⟨fun hl hset => hexec.trans (congrArg _ (takeReply_settling hl hset)),
    fun hl hset => ⟨_, hexec.trans (congrArg _ (takeReply_starting hl hset)), ?_⟩,
    fun hl => ⟨_, hexec.trans (congrArg _ (takeReply_lost hl)), ?_⟩⟩
  · have e := followTestKey_panel rfl (modPan_pan_self s p fun r => (r.replied bs).raised)
    exact ⟨(congrArg PanelRun.link e :), (congrArg PanelRun.misses e :), (congrArg PanelRun.exchange e :),
      (congrArg PanelRun.seen e :), (congrArg PanelRun.keys e :), (congrArg PanelRun.keyTest e :),
      followTestKey_room (s := s.modPan p fun r => (r.replied bs).raised) (modPan_pan_self ..)⟩
  · have hm := sysFollow_panel p (s.modPan p fun r => (r.replied bs).found) (lost := false)
      (by rw [modPan_pan_self]; rfl) (modPan_not_follows (hs _) (by rw [hl]; rfl))
    have e := hm.kept.panel (modPan_pan_self ..)
    exact ⟨(congrArg PanelRun.link e :), (congrArg PanelRun.exchange e :), (congrArg PanelRun.seen e :),
      (congrArg PanelRun.keys e :), hm.point, hm.record⟩

/-- Settles O32. -/
theorem missesLoseThePanel : Obligations.MissesLoseThePanel := by
  refine fun p s hs => ⟨waitOver_iff s p, fun h => if_neg (Bool.eq_false_iff.mp h), fun h => ?_⟩
  have hexec : exec (.keyReplyMiss p) s = .next (takeMiss p s) := if_pos h
  refine ⟨fun hl => hexec.trans (congrArg _ (takeMiss_other hl)),
    fun hl hn => hexec.trans (congrArg _ (takeMiss_counted hl hn)),
    fun hl hn => ⟨_, hexec.trans (congrArg _ (takeMiss_loses hl (Nat.not_lt.mpr hn))), ?_⟩⟩
  have hm := sysFollow_panel p (s.modPan p fun r => r.waitEnded.dropped) (lost := true)
    (by rw [modPan_pan_self]; rfl) (modPan_not_follows (hs _) (by rw [hl]; rfl))
  have e := hm.kept.panel (modPan_pan_self ..)
  exact ⟨(congrArg PanelRun.link e :), (congrArg PanelRun.misses e :), (congrArg PanelRun.keyTest e :),
    (congrArg PanelRun.exchange e :), hm.point, hm.record⟩

end Sys2Proof

/-! The station line: the receiver's bytes, frames that are discarded, and the checks of a request
(R153 to R156, R162). -/
namespace Sys2Proof.Machine

/-! ### The valid frame (R162) -/

section
variable (s : State)

theorem validFrame_link : (validFrame s).link = { s.link with
    silence := if s.cfg.settings.silence = 0 then none else some s.now, silent := false } :=
  (sysFollow_kept false 9 _).link

theorem validFrame_qual : (validFrame s).pt[sysPoint 9].qual = .normal :=
  PointState.eq_normal_of_bit (sysFollow_qual_self false (by decide) _)

/-- A silence that a valid frame ends has point 265 write its record. -/
theorem validFrame_records {s : State} (hs : s.systemLaw) (hl : s.link.silent = true) (h : s.room 1) :
    s.records (validFrame s) 0 s.stamp (.point (sysPoint 9) .normal { system := true } s.stamp) := by
  have hold : s.pt[sysPoint 9].qual.bit = true := (beq_iff_eq.mp (hs 9)).trans hl
  have hf : s.heard.follows 9 = false := by
    rw [State.follows, heard_pt, hold]
    rfl
  exact sysFollow_records (k := 9) (by decide) hf h

end

/-! ### Whether a frame is listened for -/

theorem listening_iff (s : State) : s.listening = true ↔ s.link.receiver = .hunt ∨
    (∃ (bs : List Byte) (last : Nat), s.link.receiver = .receiving bs last) ∨
    ∃ last : Nat, s.link.receiver = .skip last ∧ last + 30 < s.now := by
  unfold State.listening
  cases s.link.receiver with
  | hunt => exact ⟨fun _ => .inl rfl, fun _ => rfl⟩
  | receiving bs last => exact ⟨fun _ => .inr (.inl ⟨bs, last, rfl⟩), fun _ => rfl⟩
  | skip last =>
    refine decide_eq_true_iff.trans ⟨fun h => .inr (.inr ⟨last, rfl, h⟩), fun h => ?_⟩
    rcases h with h | ⟨_, _, h⟩ | ⟨_, h, hn⟩
    · exact Receiver.noConfusion h
    · exact Receiver.noConfusion h
    · exact Receiver.skip.inj h ▸ hn
  | replying f =>
    refine ⟨fun h => Bool.noConfusion h, fun h => ?_⟩
    rcases h with h | ⟨_, _, h⟩ | ⟨_, h, _⟩
    all_goals exact Receiver.noConfusion h

theorem addressed_iff (s : State) : s.addressed = true ↔ s.link.station ≠ 0 := by
  simp [State.addressed]

theorem frameWf_iff (f : List Byte) : frameWf f = true ↔
    rd8 f 0 = 210 ∧ 8 ≤ f.length ∧ rd8 f 5 ≤ 200 ∧ f.length = 8 + rd8 f 5 := by
  have h0 : (f.head? == some 210#8) = true ↔ rd8 f 0 = 210 := by
    cases f with
    | nil => decide
    | cons b bs => exact beq_iff_eq.trans (Option.some_inj.trans BitVec.toNat_inj.symm)
  refine (Bool.and_eq_true_iff ..).trans ?_
  refine (and_congr ((Bool.and_eq_true_iff ..).trans (and_congr ((Bool.and_eq_true_iff ..).trans
    (and_congr h0 decide_eq_true_iff)) decide_eq_true_iff)) beq_iff_eq).trans ?_
  rw [and_assoc, and_assoc]
  rfl

/-! ### The ends of frames and replies -/

/-- What a complete frame that is discarded leaves, by its verdict (R154). -/
noncomputable def frameLeft (s : State) : FrameVerdict → Host.Outcome State Fault Refusal
  | .dropped => .next s.hunt
  | .broadcast => .next (validFrame s.hunt)
  | .broadcastTime _ | .request _ _ => .next s

theorem execFrameDiscard_judged {f : List Byte} {s : State} (h : (s.listening && frameWf f) = true) :
    execFrameDiscard f s = frameLeft s (judgeFrame s.link.station.toNat f) := if_pos h

theorem execFrameDiscard_rests {f : List Byte} {s : State} (h : (s.listening && frameWf f) = false) :
    execFrameDiscard f s = .next s := if_neg (Bool.eq_false_iff.mp h)

/-- A frame that is well formed and no broadcast of a known kind, or is not listened for, changes nothing. -/
theorem execFrameDiscard_other {f : List Byte} {s : State} (h : frameWf f = false ∨ s.listening = false ∨
    (∃ (k : Nat) (r : Request), judgeFrame s.link.station.toNat f = .request k r) ∨
    ∃ r : Request, judgeFrame s.link.station.toNat f = .broadcastTime r) : execFrameDiscard f s = .next s := by
  have hjudged (hv : frameLeft s (judgeFrame s.link.station.toNat f) = .next s) : execFrameDiscard f s = .next s := by
    cases h : s.listening && frameWf f with
    | false => exact execFrameDiscard_rests h
    | true => exact (execFrameDiscard_judged h).trans hv
  rcases h with h | h | ⟨k, r, h⟩ | ⟨r, h⟩
  · exact execFrameDiscard_rests (by rw [h, Bool.and_false])
  · exact execFrameDiscard_rests (by rw [h, Bool.false_and])
  · exact hjudged (congrArg (frameLeft s) h)
  · exact hjudged (congrArg (frameLeft s) h)

theorem execReplySent_replying {s : State} {f : List Byte} (h : s.link.receiver = .replying f) : execReplySent s =
    .next (s.setLink { s.link with receiver := .hunt, speed := s.cfg.settings.speed }) := by
  unfold execReplySent
  rw [h]

theorem execReplySent_rests {s : State} (h : ∀ f : List Byte, s.link.receiver ≠ .replying f) :
    execReplySent s = .next s := by
  unfold execReplySent
  cases hr : s.link.receiver with
  | replying f => exact absurd hr (h f)
  | hunt | receiving | skip => rfl

end Sys2Proof.Machine

namespace Sys2Proof

open Sys2Proof.Machine

/-- Settles O39. -/
theorem discardsAndReplyEnd : Obligations.DiscardsAndReplyEnd := by
  refine ⟨frameWf_iff, fun s => ⟨listening_iff s, addressed_iff s, fun f hw hl => ?_,
    fun f => execFrameDiscard_other, fun f => execReplySent_replying, execReplySent_rests⟩⟩
  have hexec := execFrameDiscard_judged (f := f) (s := s) (by rw [hl, hw]; rfl)
  have hlaw (hs : s.systemLaw) : s.hunt.systemLaw := fun k => by
    by_cases hk : k = 9
    · exact hk ▸ hs 9
    · exact (setLink_follows s _ hk).trans (hs k)
  refine ⟨fun hj => ?_, fun hj hs hq => ?_, fun hj hs hq => ⟨validFrame s.hunt, ?_, validFrame_link _,
    validFrame_qual _, fun hr => validFrame_records (s := s.hunt) (hlaw hs) hq hr⟩⟩
  · exact hexec.trans (congrArg (frameLeft s) hj)
  · exact hexec.trans ((congrArg (frameLeft s) hj).trans (congrArg Host.Outcome.next (validFrame_heard (hlaw hs) hq)))
  · exact hexec.trans (congrArg (frameLeft s) hj)

end Sys2Proof

/-! The fields of replies as bytes, and the reads (11 sections 11.1 and 11.2). -/
namespace Sys2Proof.Machine

/-! ### Bytes and words read back -/

theorem byteOf_value (n : Nat) : (byteOf n).toNat = n % 256 := by simp [byteOf]

/-- Four bytes written from a number, read as one. -/
theorem le32_value (n : Nat) :
    (byteOf n).toNat + 256 * (byteOf (n / 256)).toNat +
      65536 * ((byteOf (n / 65536)).toNat + 256 * (byteOf (n / 16777216)).toNat) = n % 4294967296 := by
  have low (m : Nat) : m % 65536 = m % 256 + 256 * (m / 256 % 256) := Nat.mod_mul (a := 256) (b := 256)
  have words : n % 4294967296 = n % 65536 + 65536 * (n / 65536 % 65536) := Nat.mod_mul (a := 65536) (b := 65536)
  rw [byteOf_value, byteOf_value, byteOf_value, byteOf_value, words, low, low,
    show n / 16777216 = n / 65536 / 256 from (Nat.div_div_eq_div_mul n 65536 256).symm]

/-! ### The fields of the entries -/

section
variable (s : State)

/-! A cause (R113), as `causeBytes` lays it out. -/

end

end Sys2Proof.Machine

/-! READ_STATUS and CLEAR_NEWS (R157, R158, R160). -/
namespace Sys2Proof.Machine

/-! ### Both requests -/

section
variable {r : Request} {s : State}

/-- A request that is accepted has its state's data sent, and then what is left to do done. -/
theorem exec_accept {c : Instr} {h : Handler} {a : Answer} (hc : c.request = some (h, r)) (hh : s.hears)
    (hs : s.systemLaw) (hj : h.judge r s.heard = .accept a) :
    exec c s = .next (a.after (sendReply h.kind r.sel a.code (a.data a.state) a.state)) := by
  rw [exec_request hc, serve_hears hh hs, hj]
  rfl

/-- A request of an owner without a check of the store is accepted as the owner accepts it. -/
theorem exec_act {c : Instr} {h : Handler} {a : Answer} (hc : c.request = some (h, r)) (hh : s.hears)
    (hs : s.systemLaw) (hsel : r.sel.toNat < 512) (hlen : h.lenOk r.body.length = true)
    (hgate : h.gate s = true) (hput : (h.put && s.saving) = false) (ha : h.act r s.heard = .accept a) :
    exec c s = .next (a.after (sendReply h.kind r.sel a.code (a.data a.state) a.state)) :=
  exec_accept hc hh hs ((judge_act hlen hsel ((gate_heard hc s).trans hgate) hput).trans ha)

/-- A request that its owner refuses is refused so. -/
theorem exec_act_refuse {c : Instr} {h : Handler} {code : ResultCode} (hc : c.request = some (h, r))
    (hh : s.hears) (hs : s.systemLaw) (hsel : r.sel.toNat < 512) (hlen : h.lenOk r.body.length = true)
    (hgate : h.gate s = true) (hput : (h.put && s.saving) = false) (ha : h.act r s.heard = .refuse code) :
    exec c s = .next (sendReply h.kind r.sel code [] s.heard) := by
  rw [exec_request hc]
  exact congrArg _ (serve_refuse hh hs ((judge_act hlen hsel ((gate_heard hc s).trans hgate) hput).trans ha))

end

end Sys2Proof.Machine

/-! The Event Log: the record that fills it, its release, and the layout of its records (R146 to R150, 11
section 11.4). -/
namespace Sys2Proof.Machine

/-! ### The layout of a record -/

theorem leInt32_value (n : Int) : rd32 (leInt32 n) 0 = (n % 4294967296).toNat := by
  refine (le32_value (BitVec.ofInt 32 n).toNat).trans ?_
  rw [Nat.mod_eq_of_lt (BitVec.isLt _), BitVec.toNat_ofInt]
  rfl

end Sys2Proof.Machine

namespace Sys2Proof

open Sys2Proof.Machine

/-! ### READ_EVENTS -/

section
variable {r : Request} {s : State}

/-- What `logged` does, where the effect leaves point 261 and where it does not. -/
theorem logged_cases (f : State → State) (s : State) :
    ((f s).pt[sysPoint 5].qual = s.pt[sysPoint 5].qual → logged f s = f s) ∧
    ((f s).pt[sysPoint 5].qual ≠ s.pt[sysPoint 5].qual →
      logged f s = if (handLogOnce .system (f s)).pt[sysPoint 5].qual = (f s).pt[sysPoint 5].qual
        then handLogOnce .system (f s) else handLogOnce .system (handLogOnce .system (f s))) := by
  unfold logged loggedAs handLog
  dsimp only
  exact ⟨fun h => if_pos h, fun h => if_neg h⟩

end

end Sys2Proof

/-! The window requests (R47, R48, R51, R53, R55, R90 to R92). -/
namespace Sys2Proof.Machine

/-! ### The record of an operator action -/

theorem recordOperator_eq (s : State) (a : OperatorAction) (src : Option (Fin 4)) (n : Nat) :
    s.recordOperator a src n = if n = 0 then s else s.record (.operator a src n) := by
  unfold State.recordOperator State.writeOperator State.record
  by_cases h : n = 0
  · simp only [if_pos h]
    exact (logged_cases (fun s => s) s).1 rfl
  · simp only [if_neg h]

/-- An operator record where the log has room: it is stored where the count is not 0. -/
theorem recordOperator_room {s : State} (h : s.room 1) (a : OperatorAction) (src : Option (Fin 4)) (n : Nat) :
    s.recordOperator a src n =
      { s with log := if n = 0 then s.log else s.log.put s.stamp (.operator a src n) } := by
  rw [recordOperator_eq, record_eq_put h]
  split
  · rfl
  · rfl

/-! ### An accepted PUT -/

/-- Where the store differs already, point 264 stands and a PUT hands nothing on (R13, R159). -/
theorem markDiffers_stays {s u : State} (hs : s.systemLaw) (hd : s.store.differs = true) (hp : u.pt = s.pt)
    (hst : u.store = s.store) : markDiffers u = u := by
  have hu : u.setStore { u.store with differs := true } = u := by
    have hx : ({ u.store with differs := true } : StoreRun) = u.store := by rw [← hd, ← hst]
    rw [hx]
    rfl
  have hf : u.follows 8 = true := by
    have h8 := hs 8
    unfold State.follows at h8 ⊢
    rw [hp]
    refine Eq.trans ?_ h8
    show (s.pt[sysPoint 8].qual.bit == u.store.differs) = (s.pt[sysPoint 8].qual.bit == s.store.differs)
    rw [hst]
  unfold markDiffers
  rw [hu]
  exact sysFollow_agrees hf

/-- An accepted PUT: the effects, then point 264, then the reply. -/
theorem exec_put {c : Instr} {h : Handler} {r : Request} {s u : State} {data : State → List Byte}
    (hc : c.request = some (h, r)) (hh : s.hears) (hs : s.systemLaw) (hsel : r.sel.toNat < 512)
    (hlen : h.lenOk r.body.length = true) (hgate : h.gate s = true) (hj : s.store.job = none)
    (ha : h.act r s.heard = putAnswer u data) :
    exec c s = .next (sendReply h.kind r.sel .ok (data (markDiffers u)) (markDiffers u)) :=
  exec_act hc hh hs hsel hlen hgate (by rw [State.saving, hj]; exact Bool.and_false _) ha

end Sys2Proof.Machine

/-! The panel requests (R79, R93, R94, R96). -/
namespace Sys2Proof.Machine

/-! ### Point 264 after a PUT -/

/-- What point 264 leaves when a PUT's effects are followed by it. -/
theorem markDiffers_kept (s : State) :
    Kept 256 (s.setStore { s.store with differs := true }) (markDiffers s) := sysFollow_kept false 8 _

end Sys2Proof.Machine

/-! RESET_GROUPS (R73, R74). -/
namespace Sys2Proof.Machine

/-- The state with other groups. -/
noncomputable def State.withGroups (s : State) (grp : Vector GroupRun 16) : State := { s with grp }

/-- The two states differ in the groups alone. -/
def OnlyGroups (s t : State) : Prop := ∃ grp, t = s.withGroups grp

theorem OnlyGroups.trans {s t u : State} (h : OnlyGroups s t) (k : OnlyGroups t u) : OnlyGroups s u := by
  obtain ⟨g, rfl⟩ := h
  obtain ⟨g', rfl⟩ := k
  exact ⟨g', rfl⟩

/-- An operator record over the groups, where the log has room. -/
theorem OnlyGroups.recorded {s t : State} (h : OnlyGroups s t) (hr : s.room 1) (n : Nat) :
    let u := t.recordOperator .groupReset none n
    u.grp = t.grp ∧ u.log = (if n = 0 then s.log else s.log.put s.stamp (.operator .groupReset none n)) ∧
      u.pt = s.pt ∧ u.win = s.win ∧ u.pan = s.pan ∧ u.eqn = s.eqn ∧ u.out = s.out := by
  obtain ⟨g, rfl⟩ := h
  have hu := recordOperator_room (s := s.withGroups g) hr .groupReset none n
  exact ⟨(congrArg State.grp hu :), (congrArg State.log hu :), (congrArg State.pt hu :), (congrArg State.win hu :),
    (congrArg State.pan hu :), (congrArg State.eqn hu :), (congrArg State.out hu :)⟩

theorem resetGroupOn_only (g : Fin 16) (s : State) : OnlyGroups s (resetGroupOn g s).1 := by
  unfold resetGroupOn
  cases s.grp[g].state with
  | captured => exact ⟨_, rfl⟩
  | settling | armed => exact ⟨s.grp, rfl⟩

theorem resetGroupOn_reports (g : Fin 16) (s : State) : (resetGroupOn g s).2 = (s.grp[g].state == .captured) := by
  unfold resetGroupOn
  cases s.grp[g].state <;> rfl

theorem resetGroupOn_self (g : Fin 16) (s : State) :
    (resetGroupOn g s).1.grp[g] = if s.grp[g].state = .captured then s.grp[g].rearmed else s.grp[g] := by
  unfold resetGroupOn
  cases s.grp[g].state with
  | captured => exact modGrp_grp_self s g GroupRun.rearmed
  | settling => rfl
  | armed => rfl

theorem resetGroupOn_other (g : Fin 16) (s : State) {q : Fin 16} (h : q ≠ g) :
    (resetGroupOn g s).1.grp[q] = s.grp[q] := by
  unfold resetGroupOn
  cases s.grp[g].state with
  | captured => exact modGrp_grp_other s g GroupRun.rearmed q h
  | settling => rfl
  | armed => rfl

/-- The groups of a list take RESET_GROUPS (R73). -/
theorem resetGroups_counted (s : State) {gs : List (Fin 16)} (nd : gs.Nodup) :
    OnlyGroups s (countEach gs resetGroupOn s).1 ∧
    (∀ g : Fin 16, (countEach gs resetGroupOn s).1.grp[g] =
      if g ∈ gs then if s.grp[g].state = .captured then s.grp[g].rearmed else s.grp[g] else s.grp[g]) ∧
    (countEach gs resetGroupOn s).2 = gs.countP fun g => s.grp[g].state == .captured := by
  refine ⟨countEach_rel (R := OnlyGroups) (fun s => ⟨s.grp, rfl⟩) (fun _ _ _ => .trans) resetGroupOn_only gs s, fun g => ?_, ?_⟩
  · rw [countEach_fst]
    exact foldl_view (P := fun _ => True) (view := fun (t : State) (g : Fin 16) => t.grp[g])
      (g := fun _ x => if x.state = .captured then x.rearmed else x) (f := fun t g => (resetGroupOn g t).1)
      (fun _ _ _ => trivial) (fun t g _ => resetGroupOn_self g t) (fun t g q _ e => resetGroupOn_other g t e)
      gs s nd trivial g
  · exact countEach_count (P := fun _ => True) (q := fun (t : State) (g : Fin 16) => t.grp[g].state == .captured)
      (fun _ _ _ => trivial) (fun t g _ => resetGroupOn_reports g t)
      (fun t g q _ e => by rw [resetGroupOn_other g t e]) gs s nd trivial

end Sys2Proof.Machine

namespace Sys2Proof

open Sys2Proof.Machine

/-- Settles O47. -/
theorem resetGroupsRearms : Obligations.ResetGroupsRearms := by
  intro r s hh hs hroom hn hsel hb named gs n outcome
  have nd : gs.Nodup := (List.nodup_finRange 16).filter _
  obtain ⟨honly, hgrp, hcount⟩ := resetGroups_counted s.heard nd
  have hdata : (gs.flatMap fun g => [byteOf g.val, byteOf (groupOutcome s.grp[g].state).code]) =
      gs.flatMap fun g => [byteOf g.val, outcome s.grp[g].state] :=
    congrArg (gs.flatMap ·) (funext fun g => congrArg ([byteOf g.val, ·]) (by cases s.grp[g].state <;> rfl))
  have he : exec (.resetGroups r) s = .next (sendReply 0x13 r.sel .ok
      (byteOf gs.length :: gs.flatMap fun g => [byteOf g.val, byteOf (groupOutcome s.grp[g].state).code])
      ((countEach gs resetGroupOn s.heard).1.recordOperator .groupReset none (countEach gs resetGroupOn s.heard).2)) :=
    exec_act (c := .resetGroups r) (h := handleResetGroups) rfl hh hs hsel (beq_iff_eq.mpr hb)
      (show gateUnsettled s = true by rw [gateUnsettled, hn]; rfl) rfl rfl
  generalize countEach gs resetGroupOn s.heard = x at honly hgrp hcount he
  obtain ⟨hg, hlog, hrest⟩ := honly.recorded hroom n
  have he' : exec (.resetGroups r) s = .next (sendReply 0x13 r.sel .ok
      (byteOf gs.length :: gs.flatMap fun g => [byteOf g.val, outcome s.grp[g].state])
      (x.1.recordOperator .groupReset none n)) :=
    he.trans (congrArg₂ (fun data k => Host.Outcome.next (sendReply 0x13 r.sel .ok (byteOf gs.length :: data)
      (x.1.recordOperator .groupReset none k))) hdata hcount)
  generalize x.1.recordOperator .groupReset none n = u at hg hlog hrest he'
  refine ⟨_, he', fun g => ?_, sendReply_repliesWith _ hsel _ _ _, hlog, hrest⟩
  have hmem : g ∈ gs ↔ named g = true := List.mem_filter.trans (and_iff_right (List.mem_finRange g))
  refine (congrArg (·[g]) hg).trans ((hgrp g).trans ?_)
  exact (ite_and ..).symm.trans (if_congr (and_congr_left fun _ => hmem) rfl rfl)

end Sys2Proof

/-! A released equation, and TRIP_RESET and ARM (R107, R115, R117, R118, R126). -/
namespace Sys2Proof.Machine

/-! ### An installed record (R107) -/

section
variable (k : Fin 32) (s : State)

/-- Equation terms read only whether an equation is TRIPPED. -/
theorem term_congr {s t : State} (hp : ∀ p, t.effective p = s.effective p)
    (he : ∀ j : Fin 32, (t.eqn[j].state == .tripped) = (s.eqn[j].state == .tripped)) (hu : t.un = s.un) (x : Term) :
    t.term x = s.term x := by
  cases x with
  | const v => rfl
  | point p => simp only [State.term, hp]
  | equation j => exact he j
  | mode u m => simp only [State.term, hu]

/-- The terms do not read what installing a record writes before it forms them. -/
theorem setEquationRecord_term (e : EquationRecord) (x : Term) :
    (setEquationRecord k e s).term x = s.term x := by
  refine term_congr (s := s) (t := setEquationRecord k e s) (fun _ => rfl) (fun j => ?_) rfl x
  unfold setEquationRecord
  by_cases h : j = k
  · subst h
    rw [modEqn_eqn_self]
    rfl
  · rw [modEqn_eqn_other _ _ _ _ h]
    rfl

theorem modEqn_modEqn (f g : EquationRun → EquationRun) :
    (s.modEqn k f).modEqn k g = s.modEqn k fun r => g (f r) := by
  simp [State.modEqn]

/-- A seeded equation is as its record would install it, but for a pending record. -/
theorem seedEquation_eq :
    seedEquation k s = s.modEqn k fun r =>
      { s.installed s.cfg.equations[k] with staged := r.staged, overwrite := r.overwrite } := by
  unfold seedEquation formTerms
  extract_lets e a b s1
  have hs1 : s1.eqn[k] = { s.eqn[k] with a := a, b := b, cond := condOf e.func a b } := modEqn_eqn_self ..
  have hrest : s1.restState k = (s.installed e).state := by
    unfold State.restState State.installed
    rw [hs1]
    show (if (!s.operating || !e.inUse) = true then EquationState.unused else _) = _
    by_cases h : s.operating = false ∨ e.inUse = false
    · exact (if_pos (by simpa using h)).trans (if_pos h).symm
    · exact (if_neg (by simpa using h)).trans (if_neg h).symm
  rw [hrest]
  show (s.modEqn k _).modEqn k _ = _
  rw [modEqn_modEqn]
  rfl

theorem setEquationRecord_installed (e c : EquationRecord) :
    (setEquationRecord k e s).installed c = s.installed c := by
  unfold State.installed
  simp only [setEquationRecord_term]
  rfl

/-- Installing a record sets the equation to what the record and the terms say. -/
theorem install_eq (c : EquationRecord) :
    install k c s =
      (s.setCfg { s.cfg with equations := s.cfg.equations.set k.val c k.isLt }).modEqn k fun _ => s.installed c := by
  show seedEquation k (setEquationRecord k c s) = _
  have hc : (setEquationRecord k c s).cfg.equations[k] = c := by
    show (s.cfg.equations.set k.val c k.isLt)[k] = c
    simp
  rw [seedEquation_eq, hc, setEquationRecord_installed]
  show ((s.setCfg _).modEqn k _).modEqn k _ = _
  rw [modEqn_modEqn]
  rfl

theorem install_self (c : EquationRecord) :
    (install k c s).eqn[k] = s.installed c ∧ (install k c s).cfg.equations[k] = c := by
  rw [install_eq]
  exact ⟨modEqn_eqn_self .., by
    show (s.cfg.equations.set k.val c k.isLt)[k] = c
    simp⟩

end

end Sys2Proof.Machine

/-! The Force Table: entries placed and removed, and what each writes (R15, R17, R18). -/
namespace Sys2Proof.Machine

/-! ### Handing on an effective state, by a relation that its stages keep -/

/-- The stages of handing on an effective state, and of following a system point, are in a relation. -/
structure Hands (R : State → State → Prop) : Prop where
  refl : ∀ s, R s s
  trans : ∀ s t u, R s t → R t u → R s u
  ripple : ∀ s t, Ripple s t → R s t
  un : ∀ (s : State) (u : Fin 9) (f : UnitRun → UnitRun), R s (s.modUn u f)
  sys : ∀ (s : State) (k : Fin 12) (v : Bool), R s (s.setSys k v)
  put : ∀ (s : State) (startup : Bool) (k : Fin 12) (v : Bool) (t : TimeStamp), R s (s.put (sysRecord startup k v t))

section
variable {R : State → State → Prop} (h : Hands R)
include h

theorem Hands.sysTransition (startup : Bool) (k : Fin 12) (v : Bool) (s : State) :
    R s (sysTransition startup k v s) := by
  unfold Machine.sysTransition
  extract_lets cause t b p s1
  have hset := h.sys s k v
  split
  · exact h.trans _ _ _ (h.trans _ _ _ hset (h.put _ startup k v t)) (h.ripple _ _ (handLog_ripple _ _))
  · have h1 : Ripple (s.setSys k v) s1 :=
      loggedAs_ripple (f := fun s => s.write b) cause (.single (.trip (.write _ b rfl)))
    exact h.trans _ _ _ hset (h.ripple _ _ ((h1.op (handTerm_ripple _ _ _)).op (evalActive_ripple _ _ _ _)))

theorem Hands.sysFollow (startup : Bool) (k : Fin 12) (s : State) : R s (sysFollow startup k s) := by
  rcases sysFollow_cases startup k s with ⟨e, -⟩ | ⟨-, e⟩
  · rw [e]
    exact h.refl s
  · rw [e]
    exact h.sysTransition _ _ _ s

theorem Hands.changeMode (u : Fin 9) (new : Mode) (s : State) : R s (changeMode u new s) := by
  have hrec := logged_ripple
    (recordMode_ripple u s.un[u].current new (s.modUn u fun r => { r with current := new })).ripple
  exact h.trans _ _ _ (h.trans _ _ _ (h.un s u _) (h.ripple _ _ hrec))
    (h.ripple _ _ ((evalUnit_ripple u .mode _).op (handTerm_ripple (.mode u) _ _)))

theorem Hands.redecode (u : Fin 9) (s : State) : R s (redecode u s) := by
  unfold Machine.redecode
  extract_lets d s'
  have hs' : R s s' := h.un s u _
  split
  · exact h.refl s
  split
  · exact h.trans _ _ _ hs' (h.un _ _ _)
  split
  · exact hs'
  split
  · exact h.trans _ _ _ hs' (h.changeMode u d s')
  · exact h.trans _ _ _ (h.trans _ _ _ hs' (h.un _ _ _)) (h.changeMode u .changeover _)

theorem Hands.reblock (us : List (Fin 9)) (s : State) : R s (reblock us s) := by
  unfold Machine.reblock
  extract_lets changed flagged told
  have hflag : R s flagged := foldl_rel h.refl h.trans (fun s u => h.un s u _) changed s
  have htell : R flagged told :=
    foldl_rel h.refl h.trans (fun s u => h.ripple _ _ (tripUnit_ripple _ u s)) changed flagged
  exact h.trans _ _ _ (h.trans _ _ _ hflag htell) (h.sysFollow false 10 told)

theorem Hands.handEffective (p : Fin 268) (t : TimeStamp) (s : State) : R s (handEffective p t s) := by
  unfold Machine.handEffective
  extract_lets termed decoded keyed
  have hterm : R s termed := h.ripple _ _ (handTerm_ripple _ _ _)
  have hdecode : R termed decoded :=
    each_rel h.refl h.trans (fun u s => by
      split
      · exact h.redecode u s
      · exact h.refl s) termed
  have hd := h.trans _ _ _ hterm hdecode
  split
  · exact hd
  · exact h.trans _ _ _ hd (h.reblock keyed decoded)

end

/-! ### The table -/

section
variable (p : Fin 268) (s : State)

theorem forcedValue_none (h : ∀ e ∈ s.forces, e.point ≠ p) : s.forcedValue p = none := by
  unfold State.forcedValue
  rw [Option.map_eq_none_iff, List.find?_eq_none]
  exact fun e he => by simpa using h e he

theorem forcedValue_congr {s t : State} (h : t.forces = s.forces) (p : Fin 268) :
    t.forcedValue p = s.forcedValue p := by rw [State.forcedValue, h]; rfl

/-- Once its entries are removed a point is not forced. -/
theorem forcedValue_filter {s t : State} (h : t.forces = s.forces.filter fun e => e.point ≠ p) :
    t.forcedValue p = none := by
  refine forcedValue_none p t fun e he => ?_
  rw [h] at he
  simpa using (List.mem_filter.mp he).2

end

/-! ### Entries placed and removed -/

section
variable (p : Fin 268) (s : State)

theorem record_kept {b : RecordBody} (hb : b.isGap = false) : KeptButUnits s (s.record b) := by
  have hw : Kept 256 s (s.write b) := (kept_write s b hb).mono (by omega)
  unfold State.record logged loggedAs
  extract_lets t
  split
  · exact hw.butUnits
  · exact hw.butUnits.ripple (handLog_ripple _ t)

/-- What follows a change of the table before the active flag: the record of the force, the POINT record, and
what reads the point's effective state (R15, R17). -/
noncomputable def forceHanded (b : RecordBody) (same logs : State → Bool) (edge : State → RecordBody) (t : TimeStamp) : State :=
  let s := s.record b
  if same s then s else handEffective p t (if logs s then s.record (edge s) else s)

/-- The active flag of the point and point 263 come last. -/
noncomputable def forceSettled (cause : Cause) (t : TimeStamp) : State := sysFollow false 7 (evalActive p cause t s)

theorem setForce_eq (v : PointState) (n : Nat) :
    setForce p v n s = forceSettled p (forceHanded p (s.setForces (placeForce ⟨p, v, s.stamp, s.now, n⟩ s.forces))
      (.forceOn p v) (fun u => u.effective p == s.effective p) (fun u => u.cfg.points[p].logging)
      (fun _ => .point p v { forced := true } s.stamp) s.stamp) .force s.stamp := by
  unfold setForce forceHanded forceSettled
  simp only [beq_iff_eq]

/-- The table without the entries of a point. -/
noncomputable def State.unforced : State := s.setForces (s.forces.filter fun e => e.point ≠ p)

theorem dropForce_eq {v : PointState} (h : s.forcedValue p = some v) (reason : ForceOffReason) :
    dropForce reason p s = forceHanded p (s.unforced p) (.forceOff p v reason) (fun u => u.effective p == v)
      (fun u => u.cfg.points[p].logging && u.cfg.points[p].kind != .spare)
      (fun u => .point p (u.effective p) { unforce := true } s.stamp) s.stamp := by
  unfold dropForce forceHanded
  simp only [h, beq_iff_eq]
  rfl

section
variable {p : Fin 268} {s : State} {b : RecordBody} {same logs : State → Bool} {edge : State → RecordBody}
  {t : TimeStamp} {cause : Cause}

theorem forceHanded_hands {R : State → State → Prop} (h : Hands R) (he : ∀ u, (edge u).handed = true)
    (hb : R s (s.record b)) : R s (forceHanded p s b same logs edge t) := by
  unfold forceHanded
  extract_lets s1
  split
  · exact hb
  · refine h.trans _ _ _ (h.trans _ _ _ hb ?_) (h.handEffective p t _)
    split
    · exact h.ripple _ _ (record_ripple s1 _ (he s1))
    · exact h.refl s1

theorem forceSettled_hands {R : State → State → Prop} (h : Hands R) : R s (forceSettled p s cause t) :=
  h.trans _ _ _ (h.ripple _ _ (evalActive_ripple p cause t s)) (h.sysFollow false 7 _)

end

/-- Handing on leaves what it leaves, but for the units and the runtime state of system points. -/
theorem hands_kept : Hands KeptButUnits where
  refl := .refl
  trans _ _ _ := .trans
  ripple s _ h := (KeptButUnits.refl s).ripple h
  un s u f := (KeptButUnits.refl s).modUn u f
  sys s k v := (kept_setSys k v s).butUnits
  put s _ _ _ _ := (kept_put 256 s _ rfl).butUnits

section
variable {p : Fin 268} {s : State} {b : RecordBody} {same logs : State → Bool} {edge : State → RecordBody}
  {t : TimeStamp} {cause : Cause}

/-- The record of the force is written first. -/
theorem forceHanded_records (h : s.room 1) (he : ∀ u, (edge u).handed = true) (hb : b.isGap = false) :
    s.records (forceHanded p s b same logs edge t) 0 s.stamp b := by
  have h0 := record_records h b
  unfold forceHanded
  extract_lets s1
  have hk : KeptButUnits s1 (if logs s1 then s1.record (edge s1) else s1) := by
    split
    · exact hands_kept.ripple _ _ (record_ripple s1 _ (he s1))
    · exact .refl s1
  split
  · exact h0
  · exact (hk.trans (handEffective_kept p t _)).log.keeps h0 hb

theorem forceSettled_records {i : Nat} {stamp : TimeStamp} {a : State} (h : a.records s i stamp b)
    (hb : b.isGap = false) : a.records (forceSettled p s cause t) i stamp b :=
  (forceSettled_hands hands_kept).log.keeps h hb

/-- Point 263 stands as the table. -/
theorem forceSettled_point : (forceSettled p s cause t).pt[sysPoint 7].qual =
    if s.forces.isEmpty then .normal else .abnormal := by
  have hq : (forceSettled p s cause t).pt[sysPoint 7].qual.bit = !(evalActive p cause t s).forces.isEmpty :=
    sysFollow_qual_self false (by decide) _
  rw [(evalActive_ripple p cause t s).kept.forces] at hq
  cases hf : s.forces.isEmpty with
  | true => rw [hf] at hq; exact PointState.eq_normal_of_bit hq
  | false => rw [hf] at hq; exact PointState.eq_abnormal_of_bit hq

end

/-! ### An entry removed -/

theorem removeForce_eq {v : PointState} (h : s.forcedValue p = some v) (reason : ForceOffReason) :
    removeForce reason p s =
      forceSettled p (dropForce reason p s) .unforce (dropForce reason p s).stamp := by
  unfold removeForce forceSettled
  rw [if_pos (show s.forced p = true by rw [State.forced, h]; rfl)]

theorem dropForce_kept {v : PointState} (h : s.forcedValue p = some v) (reason : ForceOffReason) :
    KeptButUnits (s.unforced p) (dropForce reason p s) := by
  rw [dropForce_eq p s h]
  exact forceHanded_hands hands_kept (fun _ => rfl) (record_kept _ rfl)

theorem removeForce_kept {v : PointState} (h : s.forcedValue p = some v) (reason : ForceOffReason) :
    KeptButUnits (s.unforced p) (removeForce reason p s) := by
  rw [removeForce_eq p s h]
  exact (dropForce_kept p s h reason).trans (forceSettled_hands hands_kept)

theorem removeForce_records {s : State} {v : PointState} (h : s.forcedValue p = some v) (hr : s.room 1)
    (reason : ForceOffReason) : s.records (removeForce reason p s) 0 s.stamp (.forceOff p v reason) := by
  rw [removeForce_eq p s h, dropForce_eq p s h]
  exact forceSettled_records (a := s) (forceHanded_records (s := s.unforced p) hr (fun _ => rfl) rfl) rfl

theorem removeForce_point {v : PointState} (h : s.forcedValue p = some v) (reason : ForceOffReason) :
    (removeForce reason p s).pt[sysPoint 7].qual =
      if (removeForce reason p s).forces.isEmpty then .normal else .abnormal := by
  rw [removeForce_eq p s h, forceSettled_point, (forceSettled_hands hands_kept).forces]

end

end Sys2Proof.Machine

/-! FORCE, UNFORCE and the expiry of an entry (R15, R17, R18). -/
namespace Sys2Proof.Machine

theorem effective_eq (p : Fin 268) (s : State) : s.effective p = (s.forcedValue p).getD s.pt[p].qual := rfl

theorem effective_unforced {p : Fin 268} {s : State} (h : s.forcedValue p = none) :
    s.effective p = s.pt[p].qual := by rw [effective_eq, h]; rfl

/-! ### FORCE -/

section
variable {r : Request} {s : State} (hh : s.hears) (hs : s.systemLaw) (hsel : r.sel.toNat < 512)
include hh hs hsel

/-- A request that its owner answers with data is answered OK. -/
theorem exec_accepts {c : Instr} {h : Handler} {t : State} {data : State → List Byte}
    (hc : c.request = some (h, r)) (hlen : h.lenOk r.body.length = true) (hgate : h.gate s = true)
    (hput : (h.put && s.saving) = false) (ha : h.act r s.heard = accept t data) :
    exec c s = .next (sendReply h.kind r.sel .ok (data t) t) :=
  exec_act hc hh hs hsel hlen hgate hput ha

end

/-! ### The expiry of an entry -/

theorem forcedValue_of_due {p : Fin 268} {s : State} (h : s.forceDue p = true) : ∃ v, s.forcedValue p = some v := by
  obtain ⟨e, he, hp, -⟩ := (forceDue_iff s p).mp h
  cases hv : s.forcedValue p with
  | some v => exact ⟨v, rfl⟩
  | none =>
    unfold State.forcedValue at hv
    rw [Option.map_eq_none_iff, List.find?_eq_none] at hv
    exact absurd (decide_eq_true hp) (hv e he)

/-- Settles O25: the expiry takes the entries of the point, writes the record and leaves the qualified state. -/
theorem forceExpiryRemovesEntry : Obligations.ForceExpiryRemovesEntry := by
  unfold Obligations.ForceExpiryRemovesEntry
  intro p s q
  refine ⟨forceDue_iff s q, fun h => if_neg (Bool.eq_false_iff.mp h), fun h => ?_⟩
  obtain ⟨v, hv⟩ := forcedValue_of_due h
  have hk := removeForce_kept q s hv .expiry
  have hqual : (removeForce .expiry q s).pt[q].qual = s.pt[q].qual :=
    (congrArg PointRun.qual (hk.pt q p.isLt (ne_sysPoint_of_lt p.isLt 5)) :)
  refine ⟨_, if_pos h, hk.forces, (effective_unforced (forcedValue_filter q hk.forces)).trans hqual,
    removeForce_point q s hv .expiry, fun w hw hr => ?_⟩
  exact removeForce_records q hw hr .expiry

end Sys2Proof.Machine

/-! The output requests: CLEAR_FAULTS, the manual demands and PUT_OUTPUT (R124, R132, R133). -/
namespace Sys2Proof.Machine

/-! ### A system point that follows its condition (R13) -/

theorem bit_eq_iff (x : PointState) (c : Bool) : x.bit = c ↔ x = PointState.ofBit c := by
  cases x <;> cases c <;> decide

/-! ### One record each, in order -/

/-- Within its room the log takes a record as it is, and nothing is handed on. -/
theorem record_room {s : State} (h : s.room 1) (b : RecordBody) : s.record b = s.put b := by
  have hw : s.write b = s.put b := write_room (by unfold State.room at h; omega) b
  have hq : (s.write b).pt[sysPoint 5].qual = s.pt[sysPoint 5].qual := by rw [hw]; rfl
  exact (if_pos hq).trans hw

end Sys2Proof.Machine

/-! CLEAR_FAULTS, OUTPUT_SET, OUTPUT_CLEAR and PUT_OUTPUT (R124, R132, R133). -/
namespace Sys2Proof.Machine

/-! ### The manual demands of a mask (R133) -/

/-- A reply changes the link alone. -/
theorem sendReply_unlinked {kind : Nat} {sel : Word} {c : ResultCode} {data : List Byte} {u : State} {l : LinkRun}
    (h : u.link = l) : { sendReply kind sel c data u with link := l } = u := by
  subst h
  rfl

end Sys2Proof.Machine

/-! SET_TIME (R138). -/
namespace Sys2Proof.Machine

/-! ### The clock set -/

/-- What SET_TIME does (R138). -/
theorem setClockTime_leaves (t : TimeStamp) (s : State) :
    (setClockTime t s).clock = ⟨t, .free, none⟩ ∧
    (setClockTime t s).pt[sysPoint 4].qual = (if s.cfg.settings.minutePulse then .abnormal else .normal) ∧
    (s.room 1 → s.records (setClockTime t s) 0 t (.clock (clampStep (t.span - s.clock.stamp.span)) .set .free)) := by
  unfold setClockTime
  dsimp only
  generalize clampStep (t.span - s.clock.stamp.span) = step
  exact ⟨(recordClock_kept step .set _).clock,
    (bit_eq_iff _ _).mp (recordClock_qual step .set (s.setClock ⟨t, .free, none⟩)),
    recordClock_records step .set (s.setClock ⟨t, .free, none⟩)⟩

theorem timeOperand_some {b : List Byte} (h : rd32 b 2 < 864000000) :
    timeOperand b = some ⟨BitVec.ofNat 16 (rd16 b 0), rd32 b 2⟩ := if_pos h

theorem timeOperand_none {b : List Byte} (h : 864000000 ≤ rd32 b 2) : timeOperand b = none :=
  if_neg (Nat.not_lt.mpr h)

theorem span_eq (t : TimeStamp) : t.span = 864000000 * (t.day.toNat : Int) + (t.dayTime : Int) := by
  unfold TimeStamp.span
  rw [Int.mul_comm]

end Sys2Proof.Machine

namespace Sys2Proof

open Sys2Proof.Machine

section
variable {r : Request} {s : State}

theorem exec_setTime_broadcast (hl : s.listening = true) :
    exec (.setTime true r) s = .next (handleSetTime.takeBroadcast r s) := if_pos hl

variable (hq : s.link.silent = false) (hs : s.systemLaw) (hsel : r.sel.toNat < 512) (hb : r.body.length = 6)
include hq hs hsel hb

omit hq hs hsel hb in
/-- SET_TIME with a time of day in range, from the clock as it stood. -/
theorem setTime_act {t : TimeStamp} (ht : timeOperand r.body = some t) (s : State) :
    handleSetTime.act r s = accept (setClockTime t s) fun u =>
      leInt32 (clampStep (t.span - s.clock.stamp.span)) ++ [byteOf u.clock.state.code] := by
  show ranged (timeOperand r.body) _ = _
  rw [ht]
  rfl

omit hq hs hsel hb in
theorem setTime_act_range (ht : timeOperand r.body = none) (s : State) :
    handleSetTime.act r s = .refuse .range := by
  show ranged (timeOperand r.body) _ = _
  rw [ht]
  rfl

omit hq hs in
theorem judge_setTime : handleSetTime.judge r s.heard = handleSetTime.act r s.heard :=
  judge_act (beq_iff_eq.mpr hb) hsel rfl rfl

/-- A broadcast SET_TIME in range sets the clock, and nothing is answered. -/
theorem takeBroadcast_setTime {t : TimeStamp} (ht : timeOperand r.body = some t) {u : State}
    (hu : setClockTime t s.heard = u) :
    handleSetTime.takeBroadcast r s = u.setLink { u.link with receiver := .hunt } := by
  unfold Handler.takeBroadcast
  dsimp only
  rw [validFrame_heard hs hq, judge_setTime hsel hb, setTime_act ht, hu]
  rfl

theorem takeBroadcast_setTime_range (ht : timeOperand r.body = none) :
    handleSetTime.takeBroadcast r s = s.heard.setLink { s.heard.link with receiver := .hunt } := by
  unfold Handler.takeBroadcast
  dsimp only
  rw [validFrame_heard hs hq, judge_setTime hsel hb, setTime_act_range ht]

end

/-- Settles O51: the clock, its record and point 260 of SET_TIME, addressed and as a broadcast. -/
theorem setTimeSetsTheClock : Obligations.SetTimeSetsTheClock := by
  unfold Obligations.SetTimeSetsTheClock
  refine ⟨fun z => ⟨rfl, leInt32_value z⟩, fun r s hl hq hs hsel hb => ?_⟩
  intro new span step sets
  have hstep : clampStep (new.span - s.heard.clock.stamp.span) = step := by
    rw [span_eq, span_eq]
    rfl
  obtain ⟨u, hu⟩ : ∃ u, setClockTime new s.heard = u := ⟨_, rfl⟩
  obtain ⟨hclock, hpoint, hrec⟩ := setClockTime_leaves new s.heard
  rw [hu] at hclock hpoint hrec
  rw [hstep] at hrec
  refine ⟨fun ht => ⟨?_, fun ha => ?_⟩, fun ht => ⟨?_, fun ha => ?_⟩⟩
  · have he := exec_setTime_broadcast (r := r) hl
    rw [takeBroadcast_setTime hq hs hsel hb (timeOperand_some ht) hu] at he
    exact ⟨_, he, ⟨hclock, hpoint, hrec⟩, rfl⟩
  · have hact := setTime_act (timeOperand_some ht) s.heard
    rw [hstep, hu] at hact
    have he := exec_accepts (c := .setTime false r) (h := handleSetTime) ⟨hl, ha, hq⟩ hs hsel rfl
      (beq_iff_eq.mpr hb) rfl rfl hact
    rw [hclock] at he
    exact ⟨_, he, ⟨hclock, hpoint, hrec⟩, sendReply_repliesWith _ hsel _ _ _⟩
  · rw [exec_setTime_broadcast hl, takeBroadcast_setTime_range hq hs hsel hb (timeOperand_none ht)]
  · exact exec_act_refuse (c := .setTime false r) (h := handleSetTime) rfl ⟨hl, ha, hq⟩ hs hsel
      (beq_iff_eq.mpr hb) rfl rfl (setTime_act_range (timeOperand_none ht) s.heard)

end Sys2Proof

/-! An accepted PUT, and PUT_EQUATION (R104 to R107, R159). -/
namespace Sys2Proof.Machine

/-- Once marked, the store differs and point 264 is ABNORMAL (R159). -/
theorem markDiffers_leaves (s : State) :
    (markDiffers s).store.differs = true ∧ (markDiffers s).pt[sysPoint 8].qual = .abnormal := by
  refine ⟨congrArg StoreRun.differs (markDiffers_kept s).store, ?_⟩
  exact PointState.eq_abnormal_of_bit (sysFollow_qual_self false (by decide) _)

/-! ### Terms (R102, R104) -/

theorem term_eq (x : Term) (s : State) : s.term x = match x with
    | .const v => v
    | .point p => decide (s.effective p = .abnormal)
    | .equation k => decide (s.eqn[k].state = .tripped)
    | .mode u m => decide (s.un[u].current = m) := by
  cases x <;> rfl

theorem Term.ne_of_ctorIdx {x y : Term} (h : (x.ctorIdx == y.ctorIdx) = false) : x ≠ y := fun e =>
  beq_eq_false_iff_ne.mp h (congrArg _ e)

theorem names_iff (x : Term) (src : TermSource) : x.names src = true ↔ match src with
    | .point p => x = .point p
    | .equation k => x = .equation k
    | .mode u => ∃ m : Mode, x = .mode u m := by
  cases src with
  | point p =>
    cases x with
    | point q => exact beq_iff_eq.trans ⟨congrArg _, Term.point.inj⟩
    | const | equation | mode => exact iff_of_false Bool.false_ne_true (Term.ne_of_ctorIdx rfl)
  | equation k =>
    cases x with
    | equation j => exact beq_iff_eq.trans ⟨congrArg _, Term.equation.inj⟩
    | const | point | mode => exact iff_of_false Bool.false_ne_true (Term.ne_of_ctorIdx rfl)
  | mode u =>
    cases x with
    | mode v m => exact beq_iff_eq.trans ⟨fun h => ⟨m, h ▸ rfl⟩, fun ⟨_, h⟩ => (Term.mode.inj h).1⟩
    | const | point | equation => exact iff_of_false Bool.false_ne_true fun h => Term.ne_of_ctorIdx rfl h.choose_spec

theorem below_iff (x : Term) (k : Fin 32) : x.below k = true ↔ ∀ j : Fin 32, x = .equation j → j < k := by
  cases x with
  | equation j => exact ⟨fun h i hi => by cases hi; exact of_decide_eq_true h, fun h => decide_eq_true (h j rfl)⟩
  | const | point | mode => exact iff_of_true rfl fun _ h => absurd h (Term.ne_of_ctorIdx rfl)

/-! ### The record of an equation -/

theorem writeEquation_staged {k : Fin 32} {s : State} (h : s.eqn[k].state = .timing ∨ s.eqn[k].state = .tripped)
    (c : EquationRecord) :
    writeEquation k c s =
      s.modEqn k fun r => { r with staged := some c, overwrite := r.overwrite || r.staged.isSome } := by
  unfold writeEquation
  rcases h with h | h <;> rw [h]

theorem writeEquation_installs {k : Fin 32} {s : State} (h : s.eqn[k].state ≠ .timing)
    (h' : s.eqn[k].state ≠ .tripped) (c : EquationRecord) :
    writeEquation k c s =
      (s.setCfg { s.cfg with equations := s.cfg.equations.set k.val c k.isLt }).modEqn k fun _ => s.installed c := by
  rw [← install_eq]
  unfold writeEquation
  cases hx : s.eqn[k].state with
  | timing => exact absurd hx h
  | tripped => exact absurd hx h'
  | unused | disarmed | idle | blocked => rfl

section
variable {k : Fin 32} {c : EquationRecord} {s t : State} (ht : writeEquation k c s = t)
include ht

/-- PUT_EQUATION leaves the points and the store. -/
theorem writeEquation_stands : t.pt = s.pt ∧ t.store = s.store := by
  subst ht
  by_cases h : s.eqn[k].state = .timing ∨ s.eqn[k].state = .tripped
  · rw [writeEquation_staged h]
    exact ⟨rfl, rfl⟩
  · obtain ⟨h1, h2⟩ := not_or.mp h
    rw [writeEquation_installs h1 h2]
    exact ⟨rfl, rfl⟩

/-- PUT_EQUATION leaves the other equations (R106, R107). -/
theorem writeEquation_others {j : Fin 32} (hj : j ≠ k) :
    t.eqn[j] = s.eqn[j] ∧ t.cfg.equations[j] = s.cfg.equations[j] := by
  subst ht
  by_cases h : s.eqn[k].state = .timing ∨ s.eqn[k].state = .tripped
  · rw [writeEquation_staged h c]
    exact ⟨modEqn_eqn_other _ _ _ _ hj, rfl⟩
  · obtain ⟨h1, h2⟩ := not_or.mp h
    rw [writeEquation_installs h1 h2 c]
    exact ⟨modEqn_eqn_other _ _ _ _ hj, Vector.getElem_set_ne k.isLt j.isLt fun e => hj (Fin.ext e.symm)⟩

/-- The record is staged while the equation is TIMING or TRIPPED (R107). -/
theorem writeEquation_stages (h : s.eqn[k].state = .timing ∨ s.eqn[k].state = .tripped) :
    t.cfg = s.cfg ∧ t.eqn[k] =
      { s.eqn[k] with staged := some c, overwrite := s.eqn[k].overwrite || s.eqn[k].staged.isSome } := by
  subst ht
  rw [writeEquation_staged h c]
  exact ⟨rfl, modEqn_eqn_self ..⟩

/-- The record is installed in every other state (R106). -/
theorem writeEquation_self (h : s.eqn[k].state ≠ .timing) (h' : s.eqn[k].state ≠ .tripped) :
    t.cfg.equations[k] = c ∧ t.eqn[k] = s.installed c := by
  subst ht
  rw [writeEquation_installs h h' c, ← install_eq]
  exact (install_self k s c).symm

end

end Sys2Proof.Machine

namespace Sys2Proof

open Sys2Proof.Machine

section
variable {r : Request} {s : State} (hh : s.hears) (hs : s.systemLaw) (hsel : r.sel.toNat < 512)
  (hj : s.store.job = none) (hb : r.body.length = 18) {k : Fin 32} (hk : rd8 r.body 0 = k.val) {c : EquationRecord}
  (hc : equationRecord r.body = some c)
include hh hs hsel hj hb hk hc

omit hh hs hsel hj hb in
/-- PUT_EQUATION with its record read. -/
theorem putEquation_act : handlePutEquation.act r s.heard =
    if !(c.a.below k && c.b.below k) then .refuse .order
    else putAnswer (writeEquation k c s.heard) fun s =>
      [byteOf s.eqn[k].state.code, byteOf s.eqn[k].staged.isSome.toNat] := by
  show ranged (toFin 32 (rd8 r.body 0)) _ = _
  rw [toFin_val hk]
  show ranged (equationRecord r.body) _ = _
  rw [hc]
  rfl

theorem exec_putEquation_order (ho : (c.a.below k && c.b.below k) = false) :
    exec (.putEquation r) s = .next (sendReply 0x3A r.sel .order [] s.heard) :=
  exec_act_refuse (c := .putEquation r) (h := handlePutEquation) rfl hh hs hsel (beq_iff_eq.mpr hb) rfl
    (by rw [show s.saving = false by rw [State.saving, hj]; rfl]; rfl)
    ((putEquation_act hk hc).trans (if_pos (by rw [ho]; rfl)))

theorem exec_putEquation (ho : (c.a.below k && c.b.below k) = true) {u : State}
    (hu : markDiffers (writeEquation k c s.heard) = u) :
    exec (.putEquation r) s = .next (sendReply 0x3A r.sel .ok
      [byteOf u.eqn[k].state.code, byteOf u.eqn[k].staged.isSome.toNat] u) := by
  have he := exec_put (c := .putEquation r) (h := handlePutEquation) rfl hh hs hsel (beq_iff_eq.mpr hb) rfl hj
    ((putEquation_act hk hc).trans (if_neg (by rw [ho]; decide)))
  rw [hu] at he
  exact he

end

/-- Settles O53: the terms, and the record of PUT_EQUATION staged or installed. -/
theorem putEquationStagesOrInstalls : Obligations.PutEquationStagesOrInstalls := by
  refine ⟨term_eq, names_iff, below_iff, fun r s k c hh hs hsel hj hb hk hc =>
    ⟨exec_putEquation_order hh hs hsel hj hb hk hc, fun ho => ?_⟩⟩
  obtain ⟨u, hu⟩ : ∃ u, markDiffers (writeEquation k c s.heard) = u := ⟨_, rfl⟩
  obtain ⟨hstore, hpoint⟩ := markDiffers_leaves (writeEquation k c s.heard)
  refine ⟨_, exec_putEquation hh hs hsel hj hb hk hc ho hu, hu ▸ hstore, hu ▸ hpoint,
    sendReply_repliesWith _ hsel _ _ _, fun hd => ?_⟩
  obtain ⟨hpt, hst⟩ := writeEquation_stands (k := k) (c := c) (s := s.heard) rfl
  have hw : writeEquation k c s.heard = u := (markDiffers_stays (s := s) hs hd hpt hst).symm.trans hu
  exact ⟨fun _ => writeEquation_others hw, writeEquation_stages (s := s.heard) (t := u) hw,
    writeEquation_self (s := s.heard) (t := u) hw⟩

end Sys2Proof

/-! The PUT requests: what each refuses and writes (R24, R37, R63, R78, R124, R159, R163). -/
namespace Sys2Proof.Machine

section
variable {c : Instr} {h : Handler} {r : Request} {s u : State} {data : State → List Byte}
  (hc : c.request = some (h, r)) (hh : s.hears) (hs : s.systemLaw) (hsel : r.sel.toNat < 512)
  (hlen : h.lenOk r.body.length = true) (hgate : h.gate s = true) (hj : s.store.job = none)
include hc hh hs hsel hlen hgate hj

/-- An accepted PUT: what its effects leave once point 264 has followed, and its reply (R159). -/
theorem exec_put_written {P : State → Prop} (hP : ∀ t : State, { t with link := (markDiffers u).link } = markDiffers u →
      t.link.silence = u.link.silence → t.link.speed = u.link.speed → P t)
    (ha : h.act r s.heard = putAnswer u data) :
    ∃ t : State, exec c s = .next t ∧ P t ∧ t.store.differs = true ∧ t.pt[sysPoint 8].qual = .abnormal ∧
      t.repliesWith h.kind r.sel .ok (data (markDiffers u)) := by
  have he := exec_put hc hh hs hsel hlen hgate hj ha
  obtain ⟨hstore, hpoint⟩ := markDiffers_leaves u
  have hlink : (markDiffers u).link = u.link := (markDiffers_kept u).link
  revert he hP hstore hpoint hlink
  generalize markDiffers u = m
  intro hP he hstore hpoint hlink
  have hsilence : m.link.silence = u.link.silence := by rw [hlink]
  have hspeed : m.link.speed = u.link.speed := by rw [hlink]
  exact ⟨_, he, hP _ (sendReply_unlinked rfl) hsilence hspeed, hstore, hpoint, sendReply_repliesWith _ hsel _ _ _⟩

end

end Sys2Proof.Machine

/-! The PUT requests settled (R159). -/

namespace Sys2Proof

open Sys2Proof.Machine

section
variable {r : Request} {s : State} (hh : s.hears) (hs : s.systemLaw) (hsel : r.sel.toNat < 512)
  (hj : s.store.job = none) (hb : r.body.length = 14)
include hh hs hsel hj hb

omit hh hs hsel hj hb in
theorem putPoint_act {p : Fin 268} (hp : rd16 r.body 0 = p.val) : handlePutPoint.act r s.heard =
    ranged (pointCandidate (256 ≤ p.val) s.cfg.points[p] r.body) fun c =>
      match pointRefusal s.cfg p (rd16 r.body 2) c with
      | some code => .refuse code
      | none => putAnswer (writePoint p c s.heard) noData := by
  show ranged (toFin 268 (rd16 r.body 0)) _ = _
  rw [toFin_val hp]
  rfl

section
variable {p : Fin 268} (hp : rd16 r.body 0 = p.val) {c : PointConfig} (hc : PointPut p s.cfg.points[p] r.body c)
include hp hc

omit hh hs hsel hj hb in
theorem putPoint_judged : handlePutPoint.act r s.heard = match pointRefusal s.cfg p (rd16 r.body 2) c with
    | some code => .refuse code
    | none => putAnswer (writePoint p c s.heard) noData := by
  rw [putPoint_act hp, pointCandidate_eq_some.mpr hc]
  rfl

end

end

end Sys2Proof

/-! SAVE (R169). -/
namespace Sys2Proof.Machine

/-! ### A SAVE that ends -/

section
variable (j : SaveJob) (s : State)

/-- A SAVE that succeeds stores its copy, and points 264 and 267 follow. -/
theorem saveDone_leaves :
    (saveDone j s).store = ⟨⟨j.tables, j.service, true⟩, none, false, s.store.differs && j.stagedHeld⟩ ∧
    (saveDone j s).pt[sysPoint 8].qual = (if (saveDone j s).store.differs then .abnormal else .normal) ∧
    (saveDone j s).pt[sysPoint 11].qual = .normal := by
  unfold saveDone
  extract_lets u
  have h8 := sysFollow_kept false 8 u
  have h11 := sysFollow_kept false 11 (sysFollow false 8 u)
  have hstore : (sysFollow false 11 (sysFollow false 8 u)).store = u.store := h11.store.trans h8.store
  refine ⟨hstore, ?_, ?_⟩
  · rw [hstore, sysFollow_qual_other false (by decide) (by decide)]
    exact (bit_eq_iff _ _).mp (sysFollow_qual_self false (by decide) u)
  · refine PointState.eq_normal_of_bit ((sysFollow_qual_self false (by decide) _).trans ?_)
    exact congrArg StoreRun.lastFailed h8.store

/-- A SAVE that fails leaves point 264, and point 267 follows. -/
theorem saveFailed_leaves :
    (saveFailed j s).store = { s.store with
      image := failedImage (Config.failedSaveLeaves s.draws) j s.store.image, job := none, lastFailed := true } ∧
    (saveFailed j s).pt[sysPoint 8].qual = s.pt[sysPoint 8].qual ∧
    (saveFailed j s).pt[sysPoint 11].qual = .abnormal := by
  unfold saveFailed
  extract_lets image x u
  refine ⟨(sysFollow_kept false 11 _).store, sysFollow_qual_other false (by decide) (by decide) _, ?_⟩
  exact PointState.eq_abnormal_of_bit (sysFollow_qual_self false (by decide) _)

theorem failedImage_cases (x : Config.FailedSave) (old : StoredImage) :
    failedImage x j old = old ∨ failedImage x j old = ⟨j.tables, j.service, true⟩ ∨
      failedImage x j old = { old with check := false } := by
  cases x
  case keepsOld => exact .inl rfl
  case holdsCopy => exact .inr (.inl rfl)
  case bad => exact .inr (.inr rfl)

end

end Sys2Proof.Machine

namespace Sys2Proof

open Sys2Proof.Machine

section
variable {r : Request} {s : State}

theorem exec_save (hh : s.hears) (hs : s.systemLaw) (hsel : r.sel.toNat < 512) (hb : r.body = [])
    (hn : s.settle = none) (hj : s.store.job = none) :
    exec (.save r) s = .next (sendReply 0x40 r.sel .ok [1#8] (s.heard.setStore { s.store with
      job := some (SaveJob.mk s.cfg s.service
        ((List.finRange 32).any fun k => s.eqn[k].staged.isSome) s.now) })) :=
  exec_act (c := .save r) (h := handleSave) rfl hh hs hsel (by rw [hb]; rfl)
    (show s.settle.isNone = true by rw [hn]; rfl)
    (by rw [show s.saving = false by rw [State.saving, hj]; rfl]; rfl) rfl

theorem exec_saveSuccess_none (hj : s.store.job = none) : exec .saveSuccess s = .next s := by
  show execSaveSuccess s = _
  unfold execSaveSuccess
  rw [hj]

theorem exec_saveFailure_none (hj : s.store.job = none) : exec .saveFailure s = .next s := by
  show execSaveFailure s = _
  unfold execSaveFailure
  rw [hj]

section
variable {j : SaveJob} (hj : s.store.job = some j)
include hj

theorem exec_saveSuccess_late (h : j.start + 20000 < s.now) : exec .saveSuccess s = .next s := by
  show execSaveSuccess s = _
  unfold execSaveSuccess
  rw [hj]
  exact if_neg (Nat.not_le.mpr h)

theorem exec_saveSuccess_done (h : s.now ≤ j.start + 20000) : exec .saveSuccess s = .next (saveDone j s) := by
  show execSaveSuccess s = _
  unfold execSaveSuccess
  rw [hj]
  exact if_pos h

theorem exec_saveFailure_failed : exec .saveFailure s = .next (saveFailed j s) := by
  show execSaveFailure s = _
  unfold execSaveFailure
  rw [hj]

end

end

/-- Settles O54: SAVE begins, succeeds within its time, or fails. -/
theorem saveRuns : Obligations.SaveRuns := by
  unfold Obligations.SaveRuns
  refine fun r s hs => ⟨fun hh hsel hb hn hj => exec_save hh hs hsel hb hn hj,
    fun hj => ⟨exec_saveSuccess_none hj, exec_saveFailure_none hj⟩, fun j hj =>
    ⟨exec_saveSuccess_late hj, fun h => ⟨_, exec_saveSuccess_done hj h, saveDone_leaves j s⟩, ?_⟩⟩
  obtain ⟨hstore, h264, h267⟩ := saveFailed_leaves j s
  exact ⟨_, _, exec_saveFailure_failed hj, hstore, failedImage_cases j _ _, h264, h267⟩

end Sys2Proof

/-! The return to UNCONFIGURED with a chattering system point (R12, R65, R134). -/
namespace Sys2Proof.Machine

/-- Commissioning with a faulted output; point 262 has a group and its chattering flag stands, which no field
event gives a system point. -/
noncomputable def oddFault : State :=
  { State.reset with
    service := .commissioning
    cfg := { Tables.default with
      points := Tables.default.points.set 262 { PointConfig.default 262 with group := some 0 } }
    pt := State.reset.pt.set 262 { State.reset.pt[262] with raw := true, qual := .abnormal, chattering := true }
    out := State.reset.out.set 0 { State.reset.out[0] with fault := true } }

/-- SET_SERVICE to UNCONFIGURED. -/
noncomputable def returnRequest : Request := ⟨0, [0#8]⟩

theorem oddFault_hears : oddFault.hears := by
  unfold State.hears
  decide +kernel

theorem oddFault_systemLaw : oddFault.systemLaw := by
  unfold State.systemLaw
  decide +kernel

/-- The group of point 262 is re-armed, and then takes the going NORMAL of the point as a capture event. -/
theorem oddFault_captured :
    (changeService .unconfigured oddFault.heard).log.full = false ∧
      (changeService .unconfigured oddFault.heard).grp[(0 : Fin 16)].state = .captured := by
  decide +kernel

/-- The return to UNCONFIGURED is taken (R167). -/
theorem setService_returns {r : Request} {s : State} (hx : serviceOf (rd8 r.body 0) = some .unconfigured)
    (hc : s.service = .commissioning) :
    handleSetService.act r s = accept (changeService .unconfigured s) State.serviceBytes := by
  show ranged (serviceOf (rd8 r.body 0)) _ = _
  rw [hx]
  unfold ranged
  rw [hc]
  rfl

/-- Where SET_SERVICE returns a state to UNCONFIGURED, its groups are those of the change and the reply alone
follows. -/
theorem exec_setService_returns {r : Request} {s : State} (hh : s.hears) (hs : s.systemLaw)
    (hsel : r.sel.toNat < 512) (hsettle : s.settle = none) (hb : r.body.length = 1)
    (hx : serviceOf (rd8 r.body 0) = some .unconfigured) (hc : s.service = .commissioning) :
    exec (.setService r) s = .next (sendReply 0x41 r.sel .ok
      (State.serviceBytes (changeService .unconfigured s.heard)) (changeService .unconfigured s.heard)) :=
  exec_accepts (c := .setService r) (h := handleSetService) hh hs hsel rfl (beq_iff_eq.mpr hb)
    (by show s.settle.isNone = true; rw [hsettle]; rfl) rfl (setService_returns (s := s.heard) hx hc)

/-- Refutes O55: where point 262 returns to NORMAL while its chattering flag stands, its active flag is formed
and its group, re-armed before, takes a capture event. -/
theorem not_serviceRequestsAct : ¬ Obligations.ServiceRequestsAct := by
  unfold Obligations.ServiceRequestsAct
  intro h
  have hchange := (h returnRequest oddFault oddFault_hears oddFault_systemLaw (by decide) rfl).1 rfl
  have htaken := hchange.2.2.2 .unconfigured rfl (by decide) (by decide) (by decide)
  obtain ⟨t, he, ht⟩ := htaken
  have hgroups := (ht.2.2.2.2.2 rfl).2.2.2.2.2.1
  have hexec := exec_setService_returns (r := returnRequest) oddFault_hears oddFault_systemLaw (by decide) rfl rfl
    rfl rfl
  obtain ⟨hfull, hgrp⟩ := oddFault_captured
  rw [he] at hexec
  generalize changeService .unconfigured oddFault.heard = u at hexec hfull hgrp
  obtain rfl := Host.Outcome.next.inj hexec
  have hrearmed := congrArg GroupRun.state (hgroups 0 (.inl hfull))
  rw [show (sendReply 0x41 returnRequest.sel .ok (State.serviceBytes u) u).grp = u.grp from rfl, hgrp] at hrearmed
  exact absurd hrearmed (by decide)

end Sys2Proof.Machine

/-! The tables of modes, windows, lamps and horns, and the operations on one item of a table. -/
namespace Sys2Proof.Machine

/-! ### Windows -/

theorem any_contributors {c : Tables} {w : Fin 192} {f : Fin 268 → Bool} :
    (c.contributors w).any f = true ↔ ∃ p : Fin 268, c.points[p].feeds w ∧ f p = true := by
  rw [List.any_eq_true]
  exact exists_congr fun p => and_congr_left fun _ => mem_contributors

theorem not_forced (s : State) (p : Fin 268) : (!s.forced p) = s.forces.all fun e => e.point != p := by
  unfold State.forced State.forcedValue
  induction s.forces with
  | nil => rfl
  | cons e es ih =>
    rw [List.find?_cons, List.all_cons, ← ih]
    change _ = (!decide (e.point = p) && _)
    cases decide (e.point = p) <;> rfl

theorem lampPattern_seqS (x : WindowState) (marker chatter : Bool) :
    lampPattern .seqS x marker chatter = if x = .held then .steady else .off := by
  cases x <;> rfl

theorem lampPattern_call {seq : SeqType} (h : seq ≠ .seqS) (x : WindowState) (marker chatter : Bool) :
    lampPattern seq x marker chatter = match x with
      | .quiet => .off
      | .alert => if marker then .first else .fast
      | .held => if marker then .first else if chatter then .wink else .steady
      | .returned => .slow := by
  cases seq with
  | seqS => exact absurd rfl h
  | seqF | seqA | seqN => cases x <;> rfl

/-! ### Lamp frames -/

/-- The 67 bytes of a LAMP frame before its check word. -/
theorem lampFrame_body (s : State) (p : Fin 4) : ([0xA5#8, s.frameClock.phase, byteOf (s.sentBrightness p)] ++
    (List.range 64).map (s.sentCode p)).length = 67 :=
  congrArg (· + 1 + 1 + 1) ((List.length_map (s.sentCode p)).trans List.length_range)

theorem lampFrame_length (s : State) (p : Fin 4) : (s.lampFrame p).length = 69 :=
  List.length_append.trans (congrArg (· + 2) (lampFrame_body s p))

theorem lampFrame_check (s : State) (p : Fin 4) :
    (s.lampFrame p).drop 67 = le16 (crc16 ((s.lampFrame p).take 67)).toNat := by
  have hl := lampFrame_body s p
  exact (List.drop_left' hl).trans (congrArg (fun bs => le16 (crc16 bs).toNat) (List.take_left' hl).symm)

theorem lampFrame_head (s : State) (p : Fin 4) :
    (s.lampFrame p)[0]? = some 0xA5#8 ∧ (s.lampFrame p)[1]? = some s.frameClock.phase ∧
      (s.lampFrame p)[2]? = some (byteOf (s.sentBrightness p)) := ⟨rfl, rfl, rfl⟩

theorem lampFrame_code (s : State) (p : Fin 4) (k : Fin 64) :
    (s.lampFrame p)[3 + k.val]? = some (s.sentCode p k.val) := by
  have hk := Nat.add_lt_add_left k.isLt 3
  refine (List.getElem?_append_left (hk.trans_eq (lampFrame_body s p).symm)).trans ?_
  rw [Nat.add_comm]
  exact List.getElem?_map.trans (congrArg (Option.map _) (List.getElem?_range k.isLt))

/-- The code sent for a position: its window's colour, steady, under a lamp test, else its window's code. -/
theorem sentCode_eq (s : State) (p : Fin 4) (k : Nat) :
    s.sentCode p k = match s.cfg.panels[p].positions[k]? with
      | some w => if s.pan[p].tested k then byteOf (1 + 8 * s.cfg.windows[w].colour.code) else s.lampCode w
      | none => if s.pan[p].tested k then 1#8 else 0#8 := by
  unfold State.sentCode
  generalize s.cfg.panels[p].positions[k]? = w
  cases w <;> rfl

theorem sentBrightness_eq (s : State) (p : Fin 4) :
    s.sentBrightness p = if s.pan[p].keyTest ∨ s.pan[p].test ≠ none then 8 else s.pan[p].brightness :=
  if_congr (Bool.or_eq_true _ _ |>.to_iff.trans (or_congr_right Option.isSome_iff_ne_none)) rfl rfl

theorem litAt_pattern (ms : Nat) :
    litAt Pattern.off.code ms = false ∧ litAt Pattern.steady.code ms = true ∧
    (litAt Pattern.fast.code ms = true ↔ ms % 400 < 200) ∧
    (litAt Pattern.slow.code ms = true ↔ ms % 1600 < 800) ∧
    (litAt Pattern.first.code ms = true ↔ ms % 800 < 100 ∨ 200 ≤ ms % 800 ∧ ms % 800 < 300) ∧
    (litAt Pattern.wink.code ms = true ↔ ms % 2000 < 1800) :=
  ⟨rfl, rfl, decide_eq_true_iff, decide_eq_true_iff,
    (Bool.or_eq_true_iff ..).trans (or_congr decide_eq_true_iff
      ((Bool.and_eq_true_iff ..).trans (and_congr decide_eq_true_iff decide_eq_true_iff))), decide_eq_true_iff⟩

theorem lit_iff (f : Fascia) (k now : Nat) : f.lit k now = true ↔
    rd8 f.codes k / 8 % 4 ≤ 2 ∧
      litAt (rd8 f.codes k % 8) (40 * f.phase.toNat + (now - f.since) / 10) = true := by
  unfold Fascia.lit
  rw [Bool.and_eq_true, decide_eq_true_eq]

/-! ### Call sets -/

theorem forall_class {P : WindowClass → Prop} : (∀ d, P d) ↔ P .c1 ∧ P .c2 ∧ P .c3 ∧ P .c4 :=
  ⟨fun h => ⟨h _, h _, h _, h _⟩, fun ⟨h1, h2, h3, h4⟩ d => by cases d <;> assumption⟩

theorem highest_iff (c : ClassSet) (x : WindowClass) : c.highest = some x ↔
    c.has x = true ∧ ∀ d : WindowClass, d.code < x.code → c.has d = false := by
  obtain ⟨c1, c2, c3, c4⟩ := c
  rw [forall_class]
  cases x with
  | c1 | c2 | c3 | c4 =>
    revert c1 c2 c3 c4
    decide

/-! ### Modes, points and system points -/

theorem kind_tables (k : PointKind) :
    (k.qualified = true ↔ k ≠ .spare ∧ k ≠ .system) ∧ (k.annunciates = true ↔ k = .alarm ∨ k = .system) := by
  cases k <;> decide

theorem level_eq (s : State) (p : Fin 268) : s.level p = match s.cfg.points[p].sense with
    | .alarmOnClosed => if s.pt[p].raw then .abnormal else .normal
    | .alarmOnOpen => if s.pt[p].raw then .normal else .abnormal := by
  unfold State.level
  generalize s.cfg.points[p].sense = sense
  generalize s.pt[p].raw = raw
  cases sense <;> cases raw <;> rfl

theorem panelCond_iff (s : State) (p : Fin 4) : s.sysCond (panelPoint p) = true ↔ s.pan[p].link = .lost :=
  (Bool.eq_iff_iff.mp (sysCond_panel p s)).trans beq_iff_eq

theorem clockUnlocked_iff (x : ClockState) (b : Bool) :
    clockUnlocked x b = true ↔ x = .unset ∨ x = .free ∧ b = true := by
  cases x <;> cases b <;> decide

theorem not_isEmpty_iff {α : Type} (l : List α) : (!l.isEmpty) = true ↔ l ≠ [] := by
  rw [Bool.not_eq_true', List.isEmpty_eq_false_iff]

theorem any_finRange {n : Nat} {f : Fin n → Bool} : (List.finRange n).any f = true ↔ ∃ i : Fin n, f i = true := by
  rw [List.any_eq_true]
  exact exists_congr fun i => and_iff_right (List.mem_finRange i)

theorem sysCond_table (s : State) :
    (∀ p : Fin 4, s.sysCond (panelPoint p) = true ↔ s.pan[p].link = .lost) ∧
    (s.sysCond 4 = true ↔ s.clock.state = .unset ∨
      s.clock.state = .free ∧ s.cfg.settings.minutePulse = true) ∧
    (s.sysCond 5 = s.log.full) ∧
    (s.sysCond 6 = true ↔ ∃ o : Fin 16, s.out[o].fault = true) ∧
    (s.sysCond 7 = true ↔ s.forces ≠ []) ∧ s.sysCond 8 = s.store.differs ∧
    s.sysCond 9 = s.link.silent ∧
    (s.sysCond 10 = true ↔ ∃ u : Fin 9, s.un[u].blocked = true) ∧
    s.sysCond 11 = s.store.lastFailed := by
  exact ⟨panelCond_iff s, clockUnlocked_iff _ _, rfl, any_finRange, not_isEmpty_iff s.forces, rfl, rfl,
    any_finRange, rfl⟩

theorem attention_iff (s : State) : s.attention = true ↔
    (∃ u : Fin 9, s.news[u].alert = true ∧ s.cfg.settings.enables.alert = true ∨
      s.news[u].trip = true ∧ s.cfg.settings.enables.trip = true ∨
      s.news[u].mode = true ∧ s.cfg.settings.enables.mode = true ∨
      s.news[u].fault = true ∧ s.cfg.settings.enables.fault = true) ∨
    s.log.recs ≠ [] ∧ s.cfg.settings.enables.log = true := by
  refine (Bool.or_eq_true_iff ..).trans (or_congr (any_finRange.trans (exists_congr fun u => ?_))
    ((Bool.and_eq_true_iff ..).trans (and_congr_left fun _ => not_isEmpty_iff s.log.recs)))
  simp only [Bool.or_eq_true, Bool.and_eq_true, or_assoc]

/-- The operations on one item of a table change that item alone. -/
theorem item_operations (s : State) :
    (∀ p f, s.modPt p f = { s with pt := s.pt.set p.val (f s.pt[p]) p.isLt }) ∧
    (∀ u f, s.modUn u f = { s with un := s.un.set u.val (f s.un[u]) u.isLt }) ∧
    (∀ w x, s.setWin w x = { s with win := s.win.set w.val x w.isLt }) ∧
    (∀ g f, s.modGrp g f = { s with grp := s.grp.set g.val (f s.grp[g]) g.isLt }) ∧
    (∀ p f, s.modPan p f = { s with pan := s.pan.set p.val (f s.pan[p]) p.isLt }) ∧
    (∀ k f, s.modEqn k f = { s with eqn := s.eqn.set k.val (f s.eqn[k]) k.isLt }) ∧
    (∀ o f, s.modOut o f = { s with out := s.out.set o.val (f s.out[o]) o.isLt }) ∧
    (∀ u, s.setNews u .trip =
      { s with news := s.news.set u.val { s.news[u] with trip := true } u.isLt }) ∧
    (∀ u, s.setNews u .mode =
      { s with news := s.news.set u.val { s.news[u] with mode := true } u.isLt }) ∧
    (∀ x, s.setLink x = { s with link := x }) ∧ (∀ x, s.setStore x = { s with store := x }) ∧
    (∀ x, s.setCfg x = { s with cfg := x }) ∧
    ∀ (n : Nat) (f : Fin n → State → State),
      each n f s = (List.finRange n).foldl (fun a i => f i a) s :=
  ⟨fun _ _ => rfl, fun _ _ => rfl, fun _ _ => rfl, fun _ _ => rfl, fun _ _ => rfl, fun _ _ => rfl, fun _ _ => rfl,
    fun _ => rfl, fun _ => rfl, fun _ => rfl, fun _ => rfl, fun _ => rfl, fun _ _ => rfl⟩

end Sys2Proof.Machine

namespace Sys2Proof
open Machine

/-- Settles O60, table by table. -/
theorem modeAndLampTables : Obligations.ModeAndLampTables := by
  refine ⟨by decide, fun s u => rfl,
    fun x marker chatter => ⟨lampPattern_seqS x marker chatter, fun seq h => lampPattern_call h x marker chatter⟩,
    fun s w => ⟨any_contributors, any_contributors, ?_, rfl⟩,
    fun s p => ⟨lampFrame_length s p, rfl, rfl, congrArg (some <| byteOf ·) (sentBrightness_eq s p),
      lampFrame_check s p, fun k => (lampFrame_code s p k).trans (congrArg some (sentCode_eq s p k))⟩,
    litAt_pattern, fun s p => ⟨rfl, highest_iff _⟩, lit_iff, fun c => ⟨rfl, rfl, rfl, rfl⟩, fun d => ?_, kind_tables,
    level_eq, fun b => ?_, fun _ => rfl, fun _ => rfl, fun s p c => alertOn_iff s p c, sysCond_table,
    item_operations, attention_iff⟩
  · refine any_contributors.trans (exists_congr fun p => and_congr_right fun _ => ?_)
    exact Bool.eq_iff_iff.mp (congrArg (s.pt[p].chattering && ·) (not_forced s p))
  · cases d <;> rfl
  · cases b <;> exact ⟨rfl, rfl⟩

end Sys2Proof

/-! Capture events and the settle expiry of a group (R67 to R72). -/
namespace Sys2Proof.Machine

section
variable (g : Fin 16) (p : Fin 268) (e : TimeStamp) (s : State)

/-- What a capture event makes of its group, but for the FIRST_OUT record (R67 to R70, R72). -/
noncomputable def GroupRun.captured (r : GroupRun) (p : Fin 268) (e : TimeStamp) (resolve now : Nat) : GroupRun :=
  match r.state with
  | .armed => r.firstEvent p e resolve now
  | .settling => r.settleEvent p e (r.stamp.getD e)
  | .captured => r.later 1

theorem captureEvent_quiet (h : s.grp[g].state ≠ .armed ∨ s.cfg.groups[g].resolve ≠ 0) :
    captureEvent g p e s = s.modGrp g fun r => r.captured p e s.cfg.groups[g].resolve s.now := by
  have hmod {f f' : GroupRun → GroupRun} (hf : f s.grp[g] = f' s.grp[g]) : s.modGrp g f = s.modGrp g f' := by
    unfold State.modGrp
    rw [hf]
  unfold captureEvent
  cases hs : s.grp[g].state with
  | armed =>
    have hr : s.cfg.groups[g].resolve ≠ 0 := h.resolve_left fun hn => hn hs
    dsimp only
    rw [if_neg hr]
    exact hmod (by unfold GroupRun.captured; rw [hs])
  | settling => exact hmod (by unfold GroupRun.captured; rw [hs])
  | captured => exact hmod (by unfold GroupRun.captured; rw [hs])

theorem captureEvent_first (h : s.grp[g].state = .armed) (hr : s.cfg.groups[g].resolve = 0) :
    captureEvent g p e s = (s.modGrp g fun r => r.firstEvent p e 0 s.now).write (.firstOut g e [p]) := by
  unfold captureEvent
  rw [h]
  dsimp only
  rw [hr, if_pos rfl]
  unfold putFirstOut
  rw [modGrp_grp_self]
  rfl

theorem captureEvent_grp_self :
    (captureEvent g p e s).grp[g] = s.grp[g].captured p e s.cfg.groups[g].resolve s.now := by
  by_cases h : s.grp[g].state ≠ .armed ∨ s.cfg.groups[g].resolve ≠ 0
  · rw [captureEvent_quiet g p e s h, modGrp_grp_self]
  · obtain ⟨hs, hr⟩ := not_or.mp h
    rw [not_not] at hs hr
    rw [captureEvent_first g p e s hs hr, write_grp, modGrp_grp_self]
    unfold GroupRun.captured
    rw [hs, hr]

end

section
variable {r : GroupRun} {p : Fin 268} {e T : TimeStamp} {resolve now : Nat}

theorem captured_settling (h : r.state = .settling) (hT : r.stamp = some T) :
    r.captured p e resolve now = r.settleEvent p e T := by
  unfold GroupRun.captured
  rw [h, hT]
  rfl

theorem settleEvent_earlier (h : e ≠ T) (he : e.earlier T = true) :
    r.settleEvent p e T = { r with
      firstOut := [p], stamp := some e, overfull := false
      subsequent := min 255 (r.subsequent + (r.firstOut.length - if p ∈ r.firstOut then 1 else 0)) } := by
  unfold GroupRun.settleEvent GroupRun.later GroupRun.displaced
  rw [if_neg h, if_pos he]
  simp only [List.contains_iff_mem]

theorem settleEvent_later (h : e ≠ T) (he : e.earlier T = false) : r.settleEvent p e T = r.later 1 := by
  unfold GroupRun.settleEvent
  rw [if_neg h, if_neg (by rw [he]; decide)]

theorem settleEvent_again (h : e = T) (hp : p ∈ r.firstOut) : r.settleEvent p e T = r.later 1 := by
  unfold GroupRun.settleEvent
  rw [if_pos h, if_pos (List.contains_iff_mem.mpr hp)]

theorem settleEvent_joins (h : e = T) (hp : p ∉ r.firstOut) (hl : r.firstOut.length < 4) :
    r.settleEvent p e T = { r with firstOut := r.firstOut ++ [p] } := by
  unfold GroupRun.settleEvent
  rw [if_pos h, if_neg (fun hc => hp (List.contains_iff_mem.mp hc)), if_pos hl]

theorem settleEvent_overfull (h : e = T) (hp : p ∉ r.firstOut) (hl : 4 ≤ r.firstOut.length) :
    r.settleEvent p e T = { r.later 1 with overfull := true } := by
  unfold GroupRun.settleEvent
  rw [if_pos h, if_neg (fun hc => hp (List.contains_iff_mem.mp hc)), if_neg (Nat.not_lt.mpr hl)]

end

/-- Where the log has room, the settle expiry writes the FIRST_OUT record and nothing follows. -/
theorem captureGroup_room {s : State} (hr : s.room 1) (g : Fin 16) :
    logged (captureGroup g) s = (s.modGrp g fun r => { r with state := .captured, timer := none }).put
      (.firstOut g (s.grp[g].stamp.getD ⟨0, 0⟩) s.grp[g].firstOut) := by
  have hput : captureGroup g s = (s.modGrp g fun r => { r with state := .captured, timer := none }).put
      (.firstOut g (s.grp[g].stamp.getD ⟨0, 0⟩) s.grp[g].firstOut) := by
    unfold captureGroup putFirstOut
    rw [write_room (by unfold State.room at hr; show s.log.recs.length < 1023; omega), modGrp_grp_self]
    rfl
  refine (logged_eq ?_).trans hput
  rw [hput]
  rfl

end Sys2Proof.Machine

namespace Sys2Proof
open Machine

/-- Settles O27: a capture event by the state of its group, and the settle expiry. -/
theorem groupsCapture : Obligations.GroupsCapture := by
  unfold Obligations.GroupsCapture
  refine ⟨fun g s _ hr => ⟨groupDue_iff s g, fun hd => ?_, fun hd => ?_⟩, fun g p e s => ?_⟩
  · exact if_neg (by rw [hd]; decide)
  · refine (if_pos hd).trans ?_
    rw [captureGroup_room hr]
  · intro r t R
    have hself : t.grp[g] = r.captured p e R s.now := captureEvent_grp_self g p e s
    refine ⟨fun j hj => captureEvent_grp_other hj p e s, captureEvent_first g p e s, fun h => ?_, ?_, rfl,
      fun hs hR => ?_, fun hs hR => ?_, fun T hs hT => ?_, fun hs => ?_⟩
    · show { captureEvent g p e s with grp := s.grp } = s
      rw [captureEvent_quiet g p e s h]
      rfl
    · unfold GroupRun.firstEvent
      rw [Nat.mul_comm]
    · rw [hself]
      unfold GroupRun.captured
      rw [hs, hR]
      rfl
    · rw [hself]
      unfold GroupRun.captured GroupRun.firstEvent
      rw [hs]
      dsimp only
      rw [if_neg hR, if_neg hR, Nat.mul_comm]
    · rw [hself, captured_settling hs hT]
      exact ⟨settleEvent_earlier, settleEvent_later, settleEvent_again, settleEvent_joins, settleEvent_overfull⟩
    · have hlater : r.captured p e R s.now = r.later 1 := by
        unfold GroupRun.captured
        rw [hs]
      exact hself.trans hlater

end Sys2Proof

/-! The expiry of a debounce (R6, R8, R10). -/
namespace Sys2Proof.Machine

/-! ### The chatter check, and its record -/

theorem chatterCheck_on {p : Fin 268} {s : State} (hr : s.pt[p].chattering = false)
    (hT : s.cfg.points[p].threshold ≤ s.pt[p].score) (hl : s.cfg.points[p].logging = true) :
    chatterCheck p s = (s.modPt p fun r => { r with chattering := true }).record (.chatterOn p s.pt[p].score) := by
  exact (if_pos (by rw [hr, decide_eq_true hT]; rfl)).trans (if_pos hl)

theorem chatterCheck_off {p : Fin 268} {s : State} (hr : s.pt[p].chattering = true)
    (hT : s.pt[p].score ≤ s.cfg.points[p].threshold / 2) (hl : s.cfg.points[p].logging = true) :
    chatterCheck p s = (s.modPt p fun r => { r with chattering := false, suppressed := 0 }).record
      (.chatterOff p s.pt[p].qual s.pt[p].suppressed) := by
  exact (if_neg (by rw [hr]; exact Bool.false_ne_true)).trans
    ((if_pos (by rw [hr, decide_eq_true hT]; rfl)).trans (if_pos hl))

theorem chatterCheck_grows (p : Fin 268) (s : State) : logGrows s.stamp s.log (chatterCheck p s).log :=
  (chatterCheck_ripple p s).kept.log

/-! ### A qualification transition in its stages -/

/-- The point with its new qualified state, edge and score (R6 step 1). -/
noncomputable def edged (p : Fin 268) (e : TimeStamp) (s : State) : State :=
  s.modPt p fun r => { r with
    qual := s.level p, debounce := none, lastEdge := e, score := min 255 (r.score + s.cfg.points[p].weight) }

/-- Its POINT record, where the point was not chattering (R6 step 2). -/
noncomputable def pointLogged (p : Fin 268) (e : TimeStamp) (s : State) : State :=
  if !s.pt[p].chattering && s.cfg.points[p].logging then
    (edged p e s).record (.point p (s.level p) { forced := (edged p e s).forced p } e)
  else edged p e s

/-- The check made, and the suppressed count of a point that was chattering risen (R6 step 2, R10). -/
noncomputable def counted (p : Fin 268) (e : TimeStamp) (s : State) : State :=
  let c := chatterCheck p (pointLogged p e s)
  if s.pt[p].chattering then c.modPt p PointRun.suppress else c

theorem qualify_stages (p : Fin 268) (e : TimeStamp) (s : State) : qualify p e s =
    if (counted p e s).forced p then counted p e s
    else evalActiveTo p .qualify e s.cfg.points[p].contributes s.cfg.points[p].memberOf
      (handEffective p e (counted p e s)) := rfl

theorem pointLogged_stamp (p : Fin 268) (e : TimeStamp) (s : State) : (pointLogged p e s).stamp = s.stamp := by
  unfold pointLogged
  split
  · exact (record_ripple (edged p e s) _).kept.stamp
  · rfl

/-- The suppressed count leaves the log and the stamp. -/
theorem counted_log (p : Fin 268) (e : TimeStamp) (s : State) :
    (counted p e s).log = (chatterCheck p (pointLogged p e s)).log ∧
      (counted p e s).stamp = (chatterCheck p (pointLogged p e s)).stamp := by
  unfold counted
  by_cases h : s.pt[p].chattering = true
  · rw [if_pos h]; exact ⟨rfl, rfl⟩
  · rw [if_neg h]; exact ⟨rfl, rfl⟩

/-- What follows the check leaves the log growing (R6 steps 2 to 4). -/
theorem qualify_grows (p : Fin 268) (e : TimeStamp) (s : State) :
    logGrows s.stamp (chatterCheck p (pointLogged p e s)).log (qualify p e s).log := by
  obtain ⟨hlog, hc⟩ := counted_log p e s
  have hstamp := hc.trans ((chatterCheck_ripple p _).kept.stamp.trans (pointLogged_stamp p e s))
  rw [← hlog, qualify_stages, ← hstamp]
  generalize counted p e s = u
  by_cases hf : u.forced p = true
  · rw [if_pos hf]
    exact logGrows.refl _ _
  · rw [if_neg hf]
    have hk := (handEffective_kept p e u).ripple (evalActiveTo_ripple p .qualify e s.cfg.points[p].contributes
      s.cfg.points[p].memberOf (handEffective p e u))
    revert hk
    generalize evalActiveTo p .qualify e s.cfg.points[p].contributes s.cfg.points[p].memberOf (handEffective p e u) = v
    exact fun hk => hk.log

/-- The state of the point after the first record, where there is room. -/
theorem pointLogged_room {p : Fin 268} {e : TimeStamp} {s : State} (h : s.room 1)
    (hr : s.pt[p].chattering = false) (hl : s.cfg.points[p].logging = true) :
    pointLogged p e s = (edged p e s).put (.point p (s.level p) { forced := s.forced p } e) :=
  (if_pos (by rw [hr, hl]; rfl)).trans (record_eq_put (s := edged p e s) h _)

theorem pointLogged_chattering {p : Fin 268} {e : TimeStamp} {s : State} (hr : s.pt[p].chattering = true) :
    pointLogged p e s = edged p e s := if_neg (by rw [hr]; exact Bool.false_ne_true)

/-- The fields of a point with its new qualified state, edge and score. -/
noncomputable def PointRun.moved (r : PointRun) (c : PointConfig) (level : PointState) (e : TimeStamp) : PointRun :=
  { r with qual := level, debounce := none, lastEdge := e, score := min 255 (r.score + c.weight) }

theorem edged_self (p : Fin 268) (e : TimeStamp) (s : State) :
    (edged p e s).pt[p] = s.pt[p].moved s.cfg.points[p] (s.level p) e := modPt_pt_self s p _

/-- A record that follows a first one is the second. -/
theorem State.records.of_put {s t : State} {b b' : RecordBody} {stamp : TimeStamp} (h : s.room 1)
    (hr : (s.put b).records t 0 stamp b') : s.records t 1 stamp b' := by
  unfold State.records at hr ⊢
  rw [show (s.put b).log = s.log.put s.stamp b from rfl, EventLog.put_recs h, EventLog.put_next h,
    List.length_append, show (BitVec.ofNat 16 0) = 0#16 from rfl, BitVec.add_zero] at hr
  exact hr

section
variable {p : Fin 268} {e : TimeStamp} {s : State}

/-- A point that begins to chatter writes CHATTER_ON with its score (R10). -/
theorem chatterCheck_on_records {r : PointRun} (hs : s.pt[p] = r) (h : s.room 1) (hr : r.chattering = false)
    (hT : s.cfg.points[p].threshold ≤ r.score) (hl : s.cfg.points[p].logging = true) :
    s.records (chatterCheck p s) 0 s.stamp (.chatterOn p r.score) := by
  subst hs
  rw [chatterCheck_on hr hT hl]
  exact record_records (s := s.modPt p fun r => { r with chattering := true }) h _

/-- A point that stops chattering writes CHATTER_OFF with its suppressed count (R10). -/
theorem chatterCheck_off_records {r : PointRun} (hs : s.pt[p] = r) (h : s.room 1) (hr : r.chattering = true)
    (hT : r.score ≤ s.cfg.points[p].threshold / 2) (hl : s.cfg.points[p].logging = true) :
    s.records (chatterCheck p s) 0 s.stamp (.chatterOff p r.qual r.suppressed) := by
  subst hs
  rw [chatterCheck_off hr hT hl]
  exact record_records (s := s.modPt p fun r => { r with chattering := false, suppressed := 0 }) h _

/-- The POINT record comes first (R6). -/
theorem qualify_pointRecord (h : s.room 1) (hr : s.pt[p].chattering = false) (hl : s.cfg.points[p].logging = true) :
    s.records (qualify p e s) 0 s.stamp (.point p (s.level p) { forced := s.forced p } e) := by
  have h1 : s.records (pointLogged p e s) 0 s.stamp (.point p (s.level p) { forced := s.forced p } e) := by
    rw [pointLogged_room h hr hl, ← record_eq_put (s := edged p e s) h]
    exact record_records (s := edged p e s) h _
  exact (qualify_grows p e s).keeps ((chatterCheck_grows p (pointLogged p e s)).keeps h1 rfl) rfl

/-- The CHATTER_ON record comes next (R10). -/
theorem qualify_chatterOn (h : s.room 2) (hr : s.pt[p].chattering = false) (hl : s.cfg.points[p].logging = true)
    (hT : s.cfg.points[p].threshold ≤ min 255 (s.pt[p].score + s.cfg.points[p].weight)) :
    s.records (qualify p e s) 1 s.stamp (.chatterOn p (min 255 (s.pt[p].score + s.cfg.points[p].weight))) := by
  have h1 : s.room 1 := Nat.le_of_succ_le h
  have hput := pointLogged_room (e := e) h1 hr hl
  have hroom : ((edged p e s).put (.point p (s.level p) { forced := s.forced p } e)).room 1 := by
    show (s.log.put s.stamp _).recs.length + 1 ≤ 1023
    rw [EventLog.put_recs h1, List.length_append]
    exact h
  have h2 : s.records (chatterCheck p (pointLogged p e s)) 1 s.stamp
      (.chatterOn p (s.pt[p].moved s.cfg.points[p] (s.level p) e).score) := by
    rw [hput]
    exact State.records.of_put (s := edged p e s) h1 (chatterCheck_on_records
      (s := (edged p e s).put (.point p (s.level p) { forced := s.forced p } e)) (edged_self p e s) hroom hr hT hl)
  exact (qualify_grows p e s).keeps h2 rfl

/-- A point that stops chattering writes CHATTER_OFF with the count before this transition (R10). -/
theorem qualify_chatterOff (h : s.room 1) (hr : s.pt[p].chattering = true) (hl : s.cfg.points[p].logging = true)
    (hT : min 255 (s.pt[p].score + s.cfg.points[p].weight) ≤ s.cfg.points[p].threshold / 2) :
    s.records (qualify p e s) 0 s.stamp (.chatterOff p (s.level p) s.pt[p].suppressed) := by
  have h1 : s.records (chatterCheck p (pointLogged p e s)) 0 s.stamp
      (.chatterOff p (s.level p) s.pt[p].suppressed) := by
    rw [pointLogged_chattering hr]
    exact chatterCheck_off_records (edged_self p e s) h hr hT hl
  exact (qualify_grows p e s).keeps h1 rfl

end

/-- The chatter check of a point, field by field (R10). -/
theorem afterCheck_eq (r : PointRun) (n : Nat) : r.afterCheck n =
    { r with
      chattering := if r.chattering then decide (n / 2 < r.score) else decide (n ≤ r.score)
      suppressed := if r.chattering then if r.score ≤ n / 2 then 0 else r.suppressed else r.suppressed } := by
  obtain ⟨raw, qual, chattering, score, suppressed, edge, debounce, active⟩ := r
  cases chattering with
  | false => rfl
  | true =>
    by_cases h : score ≤ n / 2
    · exact (if_pos h).trans (congrArg₂ (PointRun.mk raw qual · score · edge debounce active)
        (decide_eq_false (Nat.not_lt.mpr h)).symm (if_pos h).symm)
    · exact (if_neg h).trans (congrArg₂ (PointRun.mk raw qual · score · edge debounce active)
        (decide_eq_true (Nat.lt_of_not_le h)).symm (if_neg h).symm)

/-- What a qualification transition makes of its point, field by field (R6, R9, R10). -/
theorem afterTransition_eq (r : PointRun) (c : PointConfig) (level : PointState) (e : TimeStamp) :
    r.afterTransition c level e =
      { r.moved c level e with
        chattering :=
          if r.chattering then decide (c.threshold / 2 < min 255 (r.score + c.weight))
          else decide (c.threshold ≤ min 255 (r.score + c.weight))
        suppressed :=
          if r.chattering then
            if min 255 (r.score + c.weight) ≤ c.threshold / 2 then 1 else min 65535 (r.suppressed + 1)
          else r.suppressed } := by
  have hcheck := afterCheck_eq (r.moved c level e) c.threshold
  obtain ⟨raw, qual, chattering, score, suppressed, edge, debounce, active⟩ := r
  cases chattering with
  | false => exact hcheck
  | true =>
    refine (congrArg PointRun.suppress hcheck :).trans (congrArg (PointRun.mk raw level _ _ · e none active) ?_)
    by_cases h : min 255 (score + c.weight) ≤ c.threshold / 2
    · exact (congrArg (fun n => min 65535 (n + 1)) (if_pos h)).trans (if_pos h).symm
    · exact (congrArg (fun n => min 65535 (n + 1)) (if_neg h)).trans (if_neg h).symm

end Sys2Proof.Machine

namespace Sys2Proof
open Machine

theorem exec_debounceExpiry {p : Fin 256} {s : State} {d : Option TimeStamp} (h : s.debounceDue (fieldPoint p) = d) :
    exec (.debounceExpiry p) s = .next (d.elim s fun e => qualify (fieldPoint p) e s) := by
  show execDebounceExpiry p s = _
  unfold execDebounceExpiry
  rw [h]
  cases d <;> rfl

/-- Settles O23: a debounce that is over makes a qualification transition, in its stages. -/
theorem debounceExpiryQualifies : Obligations.DebounceExpiryQualifies := by
  intro p s q c r L score
  have hlevel : s.level q = L := level_eq s q
  have hq : q ≠ sysPoint 5 := fieldPoint_ne_sysPoint p 5
  refine ⟨debounceDue_iff s q, exec_debounceExpiry, fun e hd => ⟨qualify q e s, exec_debounceExpiry hd, ?_⟩⟩
  have hk := qualifyTo_kept c.contributes c.memberOf (p := q) p.isLt e s
  have hself : (s.modPt q (·.afterTransition s.cfg.points[q] (s.level q) e)).pt[q] = _ :=
    (modPt_pt_self ..).trans (afterTransition_eq r c (s.level q) e)
  have hpt := (hk.pt q p.isLt hq).trans hself
  have hqual := (congrArg PointRun.qual hpt :).trans hlevel
  refine ⟨(congrArg PointRun.raw hpt :), hqual, (congrArg PointRun.lastEdge hpt :), (congrArg PointRun.debounce hpt :),
    (congrArg PointRun.score hpt :), (congrArg PointRun.chattering hpt :), (congrArg PointRun.suppressed hpt :),
    ?_, fun h hr hl => hlevel ▸ qualify_pointRecord h hr hl, qualify_chatterOn,
    fun h hr hl hT => hlevel ▸ qualify_chatterOff h hr hl hT⟩
  unfold State.effective
  rw [forcedValue_congr (s := s) (t := qualify q e s) hk.forces]
  exact congrArg ((s.forcedValue q).getD) hqual

end Sys2Proof

/-! The expiry of the decay timer (R8, R10). -/
namespace Sys2Proof.Machine

/-- A score one lower, and the check made (R8, R10). -/
noncomputable def PointRun.decayed (r : PointRun) (threshold : Nat) : PointRun :=
  { r with score := r.score - 1 }.afterCheck threshold

/-- The point has a score that decays (R8). -/
noncomputable def State.decays (s : State) (p : Fin 268) : Bool := s.cfg.points[p].kind.qualified && decide (0 < s.pt[p].score)

theorem decayPoint_ripple {p : Fin 268} {s : State} (h : s.decays p = true) :
    Ripple (s.modPt p fun r => r.decayed s.cfg.points[p].threshold) (decayPoint p s) := by
  have h1 := chatterCheck_ripple p (s.modPt p fun r => { r with score := r.score - 1 })
  rw [modPt_modPt] at h1
  have hd : decayPoint p s = evalActive p .chatter s.stamp
      (chatterCheck p (s.modPt p fun r => { r with score := r.score - 1 })) := if_pos h
  rw [hd]
  exact h1.op (evalActive_ripple p .chatter s.stamp _)

theorem decayPoint_stands {p : Fin 268} {s : State} (h : s.decays p = false) : decayPoint p s = s :=
  if_neg (Bool.eq_false_iff.mp h)

/-- A point but for its active flag. -/
noncomputable def PointRun.unflagged (r : PointRun) : PointRun := { r with active := false }

/-- What a field point holds but for its active flag; nothing of a system point. -/
noncomputable def State.core (s : State) (p : Fin 268) : Option PointRun :=
  if p.val < 256 then some s.pt[p].unflagged else none

theorem core_kept {s t : State} (h : Kept 268 s t) (p : Fin 268) : t.core p = s.core p := by
  unfold State.core
  split
  next hp =>
    have hq := h.pt p p.isLt (ne_sysPoint_of_lt hp 5)
    exact congrArg some (congrArg PointRun.unflagged hq :)
  · rfl

theorem core_modPt_other {s : State} {p q : Fin 268} (h : q ≠ p) (f : PointRun → PointRun) :
    (s.modPt p f).core q = s.core q := by
  unfold State.core
  rw [modPt_pt_other _ _ _ _ h]

theorem decayPoint_core_other {p q : Fin 268} (h : q ≠ p) (s : State) : (decayPoint p s).core q = s.core q := by
  cases hd : s.decays p with
  | true => rw [core_kept (decayPoint_ripple hd).kept, core_modPt_other h]
  | false => rw [decayPoint_stands hd]

/-- What the decay makes of a point. -/
noncomputable def decayedCore (c : PointConfig) (r : PointRun) : PointRun :=
  if c.kind.qualified && decide (0 < r.score) then r.decayed c.threshold else r

theorem decayedCore_pos {c : PointConfig} {r : PointRun} (h : (c.kind.qualified && decide (0 < r.score)) = true) :
    decayedCore c r = r.decayed c.threshold := if_pos h

theorem decayedCore_neg {c : PointConfig} {r : PointRun} (h : (c.kind.qualified && decide (0 < r.score)) = false) :
    decayedCore c r = r := if_neg (Bool.eq_false_iff.mp h)

theorem unflagged_decayed (r : PointRun) (threshold : Nat) :
    r.unflagged.decayed threshold = (r.decayed threshold).unflagged :=
  afterCheck_blind threshold { r with score := r.score - 1 } false

theorem unflagged_decayedCore (c : PointConfig) (r : PointRun) :
    decayedCore c r.unflagged = (decayedCore c r).unflagged := by
  cases h : c.kind.qualified && decide (0 < r.score) with
  | true => rw [decayedCore_pos h, decayedCore_pos (r := r.unflagged) h, unflagged_decayed]
  | false => rw [decayedCore_neg h, decayedCore_neg (r := r.unflagged) h]

theorem decayPoint_core_self (p : Fin 268) (s : State) :
    (decayPoint p s).core p = (s.core p).map (decayedCore s.cfg.points[p]) := by
  have hmap : (s.core p).map (decayedCore s.cfg.points[p]) =
      if p.val < 256 then some (decayedCore s.cfg.points[p] s.pt[p]).unflagged else none := by
    rw [← unflagged_decayedCore]
    exact apply_ite _ _ _ _
  rw [hmap]
  cases hd : s.decays p with
  | true =>
    rw [core_kept (decayPoint_ripple hd).kept, decayedCore_pos hd]
    unfold State.core
    rw [modPt_pt_self]
  | false =>
    rw [decayPoint_stands hd, decayedCore_neg hd]
    rfl

theorem decayPoint_kept (p : Fin 268) (s : State) :
    (decayPoint p s).cfg.points = s.cfg.points ∧ (decayPoint p s).decay = s.decay := by
  cases hd : s.decays p with
  | true =>
    have h := (decayPoint_ripple hd).kept
    exact ⟨h.points, h.decay⟩
  | false => rw [decayPoint_stands hd]; exact ⟨rfl, rfl⟩

/-- Every point decays once. -/
theorem decayPoints (s : State) :
    (each 268 decayPoint s).decay = s.decay ∧
    ∀ p : Fin 268, (each 268 decayPoint s).core p = (s.core p).map (decayedCore s.cfg.points[p]) := by
  have hinv (p : Fin 268) (t : State) (h : t.cfg.points = s.cfg.points ∧ t.decay = s.decay) :
      (decayPoint p t).cfg.points = s.cfg.points ∧ (decayPoint p t).decay = s.decay := by
    obtain ⟨h1, h2⟩ := decayPoint_kept p t
    exact ⟨h1.trans h.1, h2.trans h.2⟩
  refine ⟨(each_inv (P := fun t => t.cfg.points = s.cfg.points ∧ t.decay = s.decay) hinv s ⟨rfl, rfl⟩).2, fun p => ?_⟩
  exact each_view (P := fun t => t.cfg.points = s.cfg.points ∧ t.decay = s.decay) (view := State.core)
    (g := fun p r => r.map (decayedCore s.cfg.points[p])) (fun t p h => hinv p t h)
    (fun t p h => by rw [decayPoint_core_self, h.1]) (fun t p q _ hq => decayPoint_core_other hq t) s ⟨rfl, rfl⟩ p

/-- A decayed point, field by field (R8, R10). -/
theorem decayed_eq (r : PointRun) (threshold : Nat) : r.decayed threshold =
    { r with
      score := r.score - 1
      chattering := if r.chattering then decide (threshold / 2 < r.score - 1) else decide (threshold ≤ r.score - 1)
      suppressed := if r.chattering && decide (r.score - 1 ≤ threshold / 2) then 0 else r.suppressed } := by
  refine (afterCheck_eq { r with score := r.score - 1 } threshold).trans ?_
  refine congrArg (PointRun.mk r.raw r.qual _ (r.score - 1) · r.lastEdge r.debounce r.active) ?_
  exact (ite_and ..).symm.trans (if_congr ((Bool.and_eq_true_iff ..).trans
    (and_congr_right fun _ => decide_eq_true_iff)).symm rfl rfl)

end Sys2Proof.Machine

namespace Sys2Proof
open Machine

/-- Settles O24: each point of the loop decays once, and the others stand but for an active flag. -/
theorem decayExpiryLowersScores : Obligations.DecayExpiryLowersScores := by
  intro s
  refine ⟨decayDue_iff s, fun hd => if_neg (by rw [hd]; exact Bool.false_ne_true), fun hd => ?_⟩
  have he : exec .chatterDecayExpiry s = .next (each 268 decayPoint (advanceDecay s)) := if_pos hd
  obtain ⟨hdecay, hcore⟩ := decayPoints (advanceDecay s)
  generalize each 268 decayPoint (advanceDecay s) = t at he hdecay hcore
  refine ⟨t, he, hdecay, fun p => ?_⟩
  intro c r r'
  have hcoreOf (u : State) : u.core (fieldPoint p) = some u.pt[fieldPoint p].unflagged := if_pos p.isLt
  have hp : r'.unflagged = (decayedCore c r).unflagged := Option.some.inj ((hcoreOf t).symm.trans
    ((hcore (fieldPoint p)).trans ((congrArg (Option.map _) (hcoreOf _)).trans
      (congrArg some (unflagged_decayedCore c r)))))
  by_cases h : c.kind.qualified = true ∧ 0 < r.score
  · have hq := hp.trans (congrArg PointRun.unflagged
      ((decayedCore_pos ((Bool.and_eq_true_iff ..).mpr ⟨h.1, decide_eq_true h.2⟩)).trans (decayed_eq r c.threshold)))
    rw [if_pos h]
    exact ⟨(congrArg PointRun.score hq :), (congrArg PointRun.chattering hq :), (congrArg PointRun.suppressed hq :),
      (congrArg PointRun.qual hq :), (congrArg PointRun.raw hq :), (congrArg PointRun.lastEdge hq :),
      (congrArg PointRun.debounce hq :)⟩
  · have hq := hp.trans (congrArg PointRun.unflagged (decayedCore_neg (Bool.eq_false_iff.mpr fun hb =>
      h (((Bool.and_eq_true_iff ..).mp hb).imp_right of_decide_eq_true))))
    rw [if_neg h]
    exact congrArg (fun x : PointRun => { x with active := r.active }) hq

end Sys2Proof

/-! The law of window states under PUT_POINT with point 261 forced NORMAL (R42). -/
namespace Sys2Proof.Machine

/-- An alarm with no window. -/
noncomputable def unfedAlarm : PointConfig := ⟨.alarm, 0, .alarmOnClosed, 0, 0, 255, 31#5, none, none, true⟩

/-- The same alarm with its sense inverted, in window 0. -/
noncomputable def fedInverted : PointConfig := { unfedAlarm with sense := .alarmOnOpen, window := some 0 }

/-- Point 261 alone feeds window 0, which is HELD: its active flag stands though it is forced NORMAL. Point 0 is
active, and the log has room for its GAP record alone. -/
noncomputable def forcedFeeder : State :=
  { State.reset with
    service := .inService
    cfg := { Tables.default with
      points := (Tables.default.points.set 0 unfedAlarm).set 261 { PointConfig.default 261 with window := some 0 } }
    win := State.reset.win.set 0 .held
    pt := ((State.reset.pt.set 0 { State.reset.pt[0] with raw := true, qual := .abnormal, active := true }).set 261
      { State.reset.pt[261] with active := true }).set 263 { State.reset.pt[263] with raw := true, qual := .abnormal }
    forces := [⟨261, .normal, TimeStamp.zero, 0, 1⟩]
    log := ⟨List.replicate 1023 ⟨0, TimeStamp.zero, .chatterOn 0 0⟩, 0⟩ }

/-- PUT_POINT of point 0: its sense and its window. -/
noncomputable def feedRequest : Request := ⟨0, [0, 0, 0x84, 0, 0, 0, 1, 0, 0, 0, 0, 0, 0, 0]⟩

theorem forcedFeeder_windowLaw : forcedFeeder.windowLaw := by
  intro w
  by_cases h : w = 0
  · subst h
    decide +kernel
  · have hwin : forcedFeeder.win[w] = .quiet := by
      have hne : (0 : Nat) ≠ w.val := fun e => h (Fin.ext e.symm)
      show ((tab fun _ => WindowState.quiet : Vector WindowState 192).set 0 .held)[w] = .quiet
      simp only [Fin.getElem_fin, Vector.getElem_set_ne _ _ hne, tab_getElem]
    rw [hwin]
    exact ⟨nofun, fun _ => .inl rfl, nofun⟩

theorem forcedFeeder_hears : forcedFeeder.hears := by
  unfold State.hears
  decide +kernel

theorem forcedFeeder_systemLaw : forcedFeeder.systemLaw := by
  unfold State.systemLaw
  decide +kernel

/-- The record is lawful. -/
theorem feedRequest_act :
    handlePutPoint.act feedRequest forcedFeeder.heard =
      putAnswer (writePoint 0 fedInverted forcedFeeder.heard) noData := by
  have hc : pointCandidate (256 ≤ (0 : Fin 268).val) forcedFeeder.cfg.points[(0 : Fin 268)] feedRequest.body =
      some fedInverted := by
    decide +kernel
  have hr : pointRefusal forcedFeeder.cfg (0 : Fin 268) (rd16 feedRequest.body 2) fedInverted = none := by
    decide +kernel
  rw [putPoint_judged (p := 0) rfl (pointCandidate_eq_some.mp hc), show pointRefusal forcedFeeder.cfg _ _ _ = none from hr]

theorem markDiffers_writePoint_forcedFeeder :
    (markDiffers (writePoint 0 fedInverted forcedFeeder.heard)).win[(0 : Fin 192)] = .held ∧
      (markDiffers (writePoint 0 fedInverted forcedFeeder.heard)).condition 0 = false := by
  decide +kernel

/-- Refutes O13: the record gives window 0 a point whose flag stands, so point 261 going inactive as the log fills
leaves the window HELD; then the flag of the point falls, and the window is not told. -/
theorem not_windowLawKept : ¬ Obligations.WindowLawKept := by
  unfold Obligations.WindowLawKept
  intro h
  have hheld := markDiffers_writePoint_forcedFeeder
  obtain ⟨t, he, ⟨hwin, hcond⟩, -⟩ := exec_put_written (c := .putPoint feedRequest) (h := handlePutPoint)
    (data := noData) (P := fun t => t.win[(0 : Fin 192)] = .held ∧ t.condition 0 = false) rfl forcedFeeder_hears
    forcedFeeder_systemLaw (by decide) rfl rfl rfl
    (fun t ht _ _ => by
      generalize markDiffers (writePoint 0 fedInverted forcedFeeder.heard) = m at ht hheld
      rw [← ht] at hheld
      exact hheld) feedRequest_act
  have hlaw := h { forcedFeeder with pending := [.putPoint feedRequest] } t forcedFeeder_windowLaw he 0
  exact absurd ((hlaw.1 hwin).symm.trans hcond) Bool.noConfusion

end Sys2Proof.Machine
